-- ==== Sys2Proof/Word.lean ====
section
/-! DEFINITION. The block's words, and the small closed vocabularies its encodings name (00_scope.md R6 to R9,
30_encoding.md R70, R84). -/

namespace Sys2Proof

/-- A byte, `u8` (R6). -/
abbrev Byte := BitVec 8

/-- A 16-bit register, `u16` (R6). -/
abbrev Reg := BitVec 16

/-- The four byte-order variants of a decode, codes 0 to 3 of `enc[5:4]` (R84, R87). -/
inductive Order where
  | be
  | le
  | beSwapped
  | leSwapped
deriving DecidableEq, Repr

/-- The eight legal (width, kind) pairs of a numeric encoding (R88). -/
inductive NumType where
  | u16
  | s16
  | u32
  | s32
  | f32
  | u64
  | s64
  | f64
deriving DecidableEq, Repr

/-- A numeric encoding in its record form (R84: "a model may use the record form in its place"). -/
structure Descriptor where
  type : NumType
  order : Order
deriving DecidableEq, Repr

/-- The formats of spec/opcode_table.json: CMD, ADU_REQUEST_FC, ADU_RESPONSE_BYTE1, ENC.
They are four different encodings, so bytes are read in the format they come in (log 2, 6). -/
inductive Format where
  | cmd
  | aduRequest
  | aduResponse
  | enc
deriving DecidableEq, Repr

/-- An encoded instruction: its format and its bytes, first byte first. -/
structure Command where
  format : Format
  bytes : List Byte
deriving DecidableEq, Repr

end Sys2Proof
end

