-- ==== Sys2Proof/Machine/Bits.lean ====
section
/-! DEFINITION. Byte and register primitives (00_scope.md R8). -/

namespace Sys2Proof.Machine

/-- `hi8(r) = r[15:8]` (R8). -/
def hi8 (r : Reg) : Byte := r.extractLsb' 8 8

/-- `lo8(r) = r[7:0]` (R8). -/
def lo8 (r : Reg) : Byte := r.extractLsb' 0 8

/-- `word(h, l) = {h, l}` (R8). -/
def word (h l : Byte) : Reg := h ++ l

/-- `swap16(r) = {lo8(r), hi8(r)}` (R8). -/
def swap16 (r : Reg) : Reg := word (lo8 r) (hi8 r)

/-- The registers joined with the first most significant, as one `w`-bit pattern: `{r[0], r[1], ...}` (R8). -/
def joinRegs (w : Nat) (regs : List Reg) : BitVec w :=
  regs.foldl (fun acc r => (acc <<< 16) ||| r.setWidth w) 0#w

end Sys2Proof.Machine
end

