-- ==== Sys2Proof/Machine/Descriptor.lean ====
section
/-! DEFINITION. The numeric-encoding descriptor byte `enc` (30_encoding.md R84 to R88). -/

namespace Sys2Proof.Machine

/-- The order code (R84, R87). -/
def orderCode : Order → Nat
  | .be => 0
  | .le => 1
  | .beSwapped => 2
  | .leSwapped => 3

/-- The order named by `enc[5:4]` (R84). -/
def orderOf (enc : Byte) : Order :=
  match (enc.extractLsb' 4 2).toNat with
  | 0 => .be
  | 1 => .le
  | 2 => .beSwapped
  | _ => .leSwapped

/-- `enc[3:0]` of a type: the kind code, then the width code (R84; the values of R191 to R198). -/
def typeCode : NumType → Nat
  | .u16 => 0x00
  | .s16 => 0x04
  | .u32 => 0x01
  | .s32 => 0x05
  | .f32 => 0x09
  | .u64 => 0x02
  | .s64 => 0x06
  | .f64 => 0x0A

/-- The type of a width code and a kind code; none for width 3, kind 3 and the 16-bit float (R88). -/
def typeOfCodes (width kind : Nat) : Option NumType :=
  match width, kind with
  | 0, 0 => some .u16
  | 1, 0 => some .u32
  | 2, 0 => some .u64
  | 0, 1 => some .s16
  | 1, 1 => some .s32
  | 2, 1 => some .s64
  | 1, 2 => some .f32
  | 2, 2 => some .f64
  | _, _ => none

/-- The width code, `enc[1:0]`. -/
def widthCode (enc : Byte) : Nat := (enc.extractLsb' 0 2).toNat

/-- The kind code, `enc[3:2]`. -/
def kindCode (enc : Byte) : Nat := (enc.extractLsb' 2 2).toNat

/-- The reserved bits, `enc[7:6]`, which must be 0 (R84). -/
def reservedBits (enc : Byte) : Nat := (enc.extractLsb' 6 2).toNat

/-- The record form of a descriptor, none where R88 has DECODE refuse it. -/
def descriptorOf (enc : Byte) : Option Descriptor :=
  if reservedBits enc ≠ 0 then none
  else
    match typeOfCodes (widthCode enc) (kindCode enc) with
    | some t => some ⟨t, orderOf enc⟩
    | none => none

/-- The descriptor byte with these low four bits and this order. -/
def encByte (low : Nat) (order : Order) : Byte :=
  BitVec.ofNat 8 (low + 16 * orderCode order)

end Sys2Proof.Machine
end

