-- ==== Sys2Proof/Config.lean ====
section
/-! DEFINITION. What an implementation fixes: the settled capacities of 00_scope.md R5, the configuration record of
10_state.md R32, and the OPEN parameters, which are constants without a body. -/

namespace Sys2Proof

/-- `BANK_CAP`, registers in the bank (R5). -/
abbrev bankCap : Nat := 128

/-- `TX_CAP`, the largest request frame in bytes, CRC included (R5). -/
abbrev txCap : Nat := 256

/-- `RX_CAP`, the capacity of the response accumulator in bytes (R5). -/
abbrev rxCap : Nat := 260

/-- `CFG`, the configuration record (R32). -/
structure Cfg where
  deadlineTicks : Nat
  settleTicks : Nat
  drainMax : Nat
  hasPreHook : Bool
  hasPostHook : Bool
deriving DecidableEq, Repr

/-- The legal values of R32: a deadline and a drain bound of at least 1. -/
abbrev Cfg.Legal (c : Cfg) : Prop := 1 ≤ c.deadlineTicks ∧ 1 ≤ c.drainMax

namespace Config

/-- OPEN: `DEADLINE_TICKS` less one, so that every legal value is possible (R5, R32; log 10). -/
opaque deadlineTicksLessOne : Nat

/-- OPEN: `SETTLE_TICKS` (R5, R32; log 10). -/
opaque settleTicks : Nat

/-- OPEN: `DRAIN_MAX` less one (R5, R32; log 10). -/
opaque drainMaxLessOne : Nat

/-- OPEN: `HAS_PRE_HOOK` (R5; log 10). -/
opaque hasPreHook : Bool

/-- OPEN: `HAS_POST_HOOK` (R5; log 10). -/
opaque hasPostHook : Bool

/-- The platform's configuration at power-on: some legal record, no one knows which (R32, R222). -/
def platformCfg : Cfg where
  deadlineTicks := deadlineTicksLessOne + 1
  settleTicks := settleTicks
  drainMax := drainMaxLessOne + 1
  hasPreHook := hasPreHook
  hasPostHook := hasPostHook

/-- OPEN: `BUILD_OVERFLOW_CODE`, the 8-bit result code of BuildOverflow (R5, R83; log 12). -/
opaque buildOverflowCode : Byte

/-- OPEN: `DECODE_OOR_CODE`, the numeric code of DecodeOutOfRange where one is wanted (R5, R181; log 12). -/
opaque decodeOorCode : Byte

/-- The transport's `pending` at power-on: any finite byte sequence (R38, U4; log 11). -/
opaque pendingAtPowerOn : List Byte

/-- OPEN: `TICK_PERIOD`, here in microseconds (R5). No step reads it (R233). -/
opaque tickPeriod : Nat

end Config

/-- The response deadline in real time, `CFG.deadline_ticks * TICK_PERIOD` (R233). -/
def Cfg.deadlineTime (c : Cfg) : Nat := c.deadlineTicks * Config.tickPeriod

/-- The settling delay in real time, `CFG.settle_ticks * TICK_PERIOD` (R233). -/
def Cfg.settleTime (c : Cfg) : Nat := c.settleTicks * Config.tickPeriod

end Sys2Proof
end

