-- ==== Sys2Proof/Machine/Crc.lean ====
section
/-! DEFINITION. The CRC engine's functions (40_crc.md R100 to R102). -/

namespace Sys2Proof.Machine

/-- One of the eight rounds of CRC_UPDATE (R101; the loop is the spec's general knowledge, log 19). -/
def crcRound (c : Reg) : Reg :=
  if c.getLsbD 0 then (c >>> 1) ^^^ 0xA001#16 else c >>> 1

/-- `n` rounds. -/
def crcRounds : Nat → Reg → Reg
  | 0, c => c
  | n + 1, c => crcRounds n (crcRound c)

/-- CRC_UPDATE folds one byte into the running CRC (R101). -/
def crcUpdate (c : Reg) (b : Byte) : Reg :=
  crcRounds 8 (c ^^^ b.setWidth 16)

/-- The running CRC over `data`, from `c` (R100). -/
def crcFrom (c : Reg) (data : List Byte) : Reg :=
  data.foldl crcUpdate c

/-- CRC16, from 0xFFFF, with no final exclusive OR (R100). -/
def crc16 (data : List Byte) : Reg :=
  crcFrom 0xFFFF#16 data

/-- CRC_CHECK: the last two bytes are the CRC of those before them, low byte first (R102). -/
def crcCheck (frame : List Byte) : Bool :=
  if frame.length < 2 then false
  else
    let c := crc16 (frame.take (frame.length - 2))
    decide (frame.drop (frame.length - 2) = [lo8 c, hi8 c])

end Sys2Proof.Machine
end

