-- ==== Sys2Proof/Machine/Frame.lean ====
section
/-! DEFINITION. The frame builder's functions (41_frame_builder.md R110, R111; 30_encoding.md R72). -/

namespace Sys2Proof.Machine

/-- The bytes of a request before its CRC: `start` and `qty` go big-endian (R53, R110). -/
def requestBody (slave fc : Byte) (start qty : Reg) (extra : List Byte) : List Byte :=
  [slave, fc, hi8 start, lo8 start, hi8 qty, lo8 qty] ++ extra

/-- A body followed by its CRC, low byte first (R53, R110). -/
def appendCrc (body : List Byte) : List Byte :=
  body ++ [lo8 (crc16 body), hi8 (crc16 body)]

/-- BUILD: the request frame, or none for BuildOverflow (R110, R111). -/
def buildFrame (slave fc : Byte) (start qty : Reg) (extra : List Byte) : Option (List Byte) :=
  let body := requestBody slave fc start qty extra
  if body.length + 2 > txCap then none else some (appendCrc body)

end Sys2Proof.Machine
end

