-- ==== Sys2Proof/Syntax.lean ====
section
/-! DEFINITION. The instructions: one constructor per row of spec/opcode_table.json. -/

namespace Sys2Proof

/-- The 28 rows of the opcode table. Byte sequences may have any length and naturals do not wrap (R70). -/
inductive Instr where
  /-- CRC16, `op = 0` (R100). -/
  | crc16 (data : List Byte)
  /-- CRC_CHECK, `op = 1` (R102). -/
  | crcCheck (frame : List Byte)
  /-- BUILD, `op = 2` (R110). -/
  | build (slave fc : Byte) (start qty : Reg) (extra : List Byte)
  /-- EXEC, `op = 3` (R120). -/
  | exec (slave fc : Byte) (start qty : Reg) (extra : List Byte)
  /-- RESULT, `op = 4` (R144). -/
  | result
  /-- BANK_READ, `op = 5` (R175). -/
  | bankRead (i : Nat)
  /-- DECODE, `op = 6`, with the descriptor byte as it comes (R180). -/
  | decode (start : Nat) (enc : Byte)
  /-- RESERVED_OP7, `op = 7` (R71). -/
  | reservedOp7
  /-- READ_COILS, function code 0x01 (R150). -/
  | readCoils (slave : Byte) (start qty : Reg) (extra : List Byte)
  /-- READ_DISCRETE_INPUTS, function code 0x02 (R151). -/
  | readDiscreteInputs (slave : Byte) (start qty : Reg) (extra : List Byte)
  /-- READ_HOLDING_REGISTERS, function code 0x03 (R152). -/
  | readHoldingRegisters (slave : Byte) (start qty : Reg) (extra : List Byte)
  /-- READ_INPUT_REGISTERS, function code 0x04 (R153). -/
  | readInputRegisters (slave : Byte) (start qty : Reg) (extra : List Byte)
  /-- WRITE_SINGLE_COIL, function code 0x05 (R154). -/
  | writeSingleCoil (slave : Byte) (start qty : Reg) (extra : List Byte)
  /-- WRITE_SINGLE_REGISTER, function code 0x06 (R155). -/
  | writeSingleRegister (slave : Byte) (start qty : Reg) (extra : List Byte)
  /-- WRITE_MULTIPLE_COILS, function code 0x0F (R156). -/
  | writeMultipleCoils (slave : Byte) (start qty : Reg) (extra : List Byte)
  /-- WRITE_MULTIPLE_REGISTERS, function code 0x10 (R157). -/
  | writeMultipleRegisters (slave : Byte) (start qty : Reg) (extra : List Byte)
  /-- MASK_WRITE_REGISTER, function code 0x16 (R158). -/
  | maskWriteRegister (slave : Byte) (start qty : Reg) (extra : List Byte)
  /-- READ_WRITE_MULTIPLE_REGISTERS, function code 0x17 (R159). -/
  | readWriteMultipleRegisters (slave : Byte) (start qty : Reg) (extra : List Byte)
  /-- EXCEPTION_RESPONSE: byte 1 is `fc` with bit 7 set (R77, R133). -/
  | exceptionResponse (slave : Byte) (fc : BitVec 7) (code crcLo crcHi : Byte)
  /-- DECODE.U16, `enc = 0x00 | order << 4` (R191). -/
  | decodeU16 (start : Nat) (order : Order)
  /-- DECODE.S16, `enc = 0x04 | order << 4` (R192). -/
  | decodeS16 (start : Nat) (order : Order)
  /-- DECODE.U32, `enc = 0x01 | order << 4` (R193). -/
  | decodeU32 (start : Nat) (order : Order)
  /-- DECODE.S32, `enc = 0x05 | order << 4` (R194). -/
  | decodeS32 (start : Nat) (order : Order)
  /-- DECODE.F32, `enc = 0x09 | order << 4` (R195). -/
  | decodeF32 (start : Nat) (order : Order)
  /-- DECODE.U64, `enc = 0x02 | order << 4` (R196). -/
  | decodeU64 (start : Nat) (order : Order)
  /-- DECODE.S64, `enc = 0x06 | order << 4` (R197). -/
  | decodeS64 (start : Nat) (order : Order)
  /-- DECODE.F64, `enc = 0x0A | order << 4` (R198). -/
  | decodeF64 (start : Nat) (order : Order)
  /-- DECODE.F16_RESERVED, `enc = 0x08 | order << 4` (R190). -/
  | decodeF16Reserved (start : Nat) (order : Order)
deriving DecidableEq, Repr

end Sys2Proof
end

