-- ==== Sys2Proof/WellFormed.lean ====
section
/-! DEFINITION. Which instructions have an encoding in their format. Only a request frame is bounded: "Its length is
`8 + len(extra)` bytes, which must be at most `TX_CAP` = 256" (30_encoding.md R72). An EXEC or BUILD command may carry a
longer `extra`; it then meets BuildOverflow (41_frame_builder.md R111), so that is no ill-formed term. -/

namespace Sys2Proof

/-- The request frame with this payload fits `TX_CAP` bytes (R72). -/
abbrev RequestFits (extra : List Byte) : Prop := 8 + extra.length ≤ txCap

/-- The instruction has an encoding in its format. -/
def Instr.wellFormed : Instr → Bool
  | .crc16 _ => true
  | .crcCheck _ => true
  | .build _ _ _ _ _ => true
  | .exec _ _ _ _ _ => true
  | .result => true
  | .bankRead _ => true
  | .decode _ _ => true
  | .reservedOp7 => true
  | .readCoils _ _ _ extra => decide (RequestFits extra)
  | .readDiscreteInputs _ _ _ extra => decide (RequestFits extra)
  | .readHoldingRegisters _ _ _ extra => decide (RequestFits extra)
  | .readInputRegisters _ _ _ extra => decide (RequestFits extra)
  | .writeSingleCoil _ _ _ extra => decide (RequestFits extra)
  | .writeSingleRegister _ _ _ extra => decide (RequestFits extra)
  | .writeMultipleCoils _ _ _ extra => decide (RequestFits extra)
  | .writeMultipleRegisters _ _ _ extra => decide (RequestFits extra)
  | .maskWriteRegister _ _ _ extra => decide (RequestFits extra)
  | .readWriteMultipleRegisters _ _ _ extra => decide (RequestFits extra)
  | .exceptionResponse _ _ _ _ _ => true
  | .decodeU16 _ _ => true
  | .decodeS16 _ _ => true
  | .decodeU32 _ _ => true
  | .decodeS32 _ _ => true
  | .decodeF32 _ _ => true
  | .decodeU64 _ _ => true
  | .decodeS64 _ _ => true
  | .decodeF64 _ _ => true
  | .decodeF16Reserved _ _ => true

end Sys2Proof
end

