-- ==== Sys2Proof/Decode.lean ====
section
/-! DEFINITION. The decoder, total on any bytes of any format and rejecting by name, and after it the encoder.

The spec fixes the selector `op` (30_encoding.md R70), the request frame (R72), the exception response (R77) and the
descriptor byte (R84). How a command carries its operands is not in the spec (91_not_in_source.md N17): here a u8 is one
byte, a u16 two bytes high byte first, a natural is written in base 128 from its low end with bit 7 set on every byte but
the last, and a byte sequence is its length as a natural and then its bytes (DESIGN CHOICE, log 2). -/

namespace Sys2Proof

open Machine

/-- Why bytes are no instruction. -/
inductive DecodeError where
  /-- No byte at all. -/
  | empty
  /-- A command's first byte has a bit above the 3-bit selector set (R70). -/
  | selectorTooWide
  /-- The bytes end inside an operand. -/
  | truncated
  /-- Bytes follow the last operand. -/
  | trailing
  /-- A natural is not written in its shortest form. -/
  | paddedNatural
  /-- A request frame has fewer than 8 bytes (R72). -/
  | frameTooShort
  /-- A request frame has more than 256 bytes (R72). -/
  | frameTooLong
  /-- A request frame's CRC does not match (R72, R102). -/
  | frameCrc
  /-- Byte 1 of a request is none of the ten function codes (R79, R80). -/
  | unlistedFunctionCode
  /-- A response of the exception form does not have exactly 5 bytes (R77). -/
  | responseLength
  /-- Bit 7 of response byte 1 is clear (R81). -/
  | exceptionBitClear
  /-- A descriptor R88 reserves, other than the F16 row. -/
  | reservedDescriptor
deriving DecidableEq, Repr

/-- What a decoder answers: the value and the bytes after it. -/
abbrev Parsed (α : Type) := Except DecodeError (α × List Byte)

/-- A natural in base 128, lowest digit first (log 2). -/
def decodeNat : List Byte → Parsed Nat
  | [] => .error .truncated
  | b :: rest =>
    if b.toNat < 128 then .ok (b.toNat, rest)
    else
      match decodeNat rest with
      | .error e => .error e
      | .ok (n, rest') => if n = 0 then .error .paddedNatural else .ok (b.toNat - 128 + 128 * n, rest')

/-- A byte sequence after its length (log 2). -/
def decodeSeq (bytes : List Byte) : Parsed (List Byte) :=
  match decodeNat bytes with
  | .error e => .error e
  | .ok (n, rest) => if rest.length < n then .error .truncated else .ok (rest.take n, rest.drop n)

/-- Gives what was parsed to a constructor. -/
def Parsed.toInstr {α : Type} (f : α → Instr) : Parsed α → Parsed Instr
  | .error e => .error e
  | .ok (a, rest) => .ok (f a, rest)

/-- The operands of BUILD and EXEC: slave, fc, start, qty and extra (R70). -/
def decodeRequestOperands (f : Byte → Byte → Reg → Reg → List Byte → Instr) : List Byte → Parsed Instr
  | slave :: fc :: startHi :: startLo :: qtyHi :: qtyLo :: rest =>
    (decodeSeq rest).toInstr (f slave fc (word startHi startLo) (word qtyHi qtyLo))
  | _ => .error .truncated

/-- The operands of DECODE: the descriptor byte, then the start index. -/
def decodeDecodeOperands : List Byte → Parsed Instr
  | [] => .error .truncated
  | enc :: rest => (decodeNat rest).toInstr fun start => .decode start enc

/-- A command, selected by `op` (R70, R71). The spec gives the reserved `op = 7` no operand list; here it has no operand, so
bytes after it are no command (DESIGN CHOICE, log 2). -/
def decodeCmd : List Byte → Parsed Instr
  | [] => .error .empty
  | op :: rest =>
    match op.toNat with
    | 0 => (decodeSeq rest).toInstr .crc16
    | 1 => (decodeSeq rest).toInstr .crcCheck
    | 2 => decodeRequestOperands .build rest
    | 3 => decodeRequestOperands .exec rest
    | 4 => .ok (.result, rest)
    | 5 => (decodeNat rest).toInstr .bankRead
    | 6 => decodeDecodeOperands rest
    | 7 => .ok (.reservedOp7, rest)
    | _ => .error .selectorTooWide

/-- The request of a function code, with its operands (R79, 43_function_codes.md R150 to R159). -/
def requestOf (fc slave : Byte) (start qty : Reg) (extra : List Byte) : Except DecodeError Instr :=
  match fc.toNat with
  | 0x01 => .ok (.readCoils slave start qty extra)
  | 0x02 => .ok (.readDiscreteInputs slave start qty extra)
  | 0x03 => .ok (.readHoldingRegisters slave start qty extra)
  | 0x04 => .ok (.readInputRegisters slave start qty extra)
  | 0x05 => .ok (.writeSingleCoil slave start qty extra)
  | 0x06 => .ok (.writeSingleRegister slave start qty extra)
  | 0x0F => .ok (.writeMultipleCoils slave start qty extra)
  | 0x10 => .ok (.writeMultipleRegisters slave start qty extra)
  | 0x16 => .ok (.maskWriteRegister slave start qty extra)
  | 0x17 => .ok (.readWriteMultipleRegisters slave start qty extra)
  | _ => .error .unlistedFunctionCode

/-- A request frame: slave, function code, start, quantity, payload, CRC (R72). -/
def decodeRequest (frame : List Byte) : Except DecodeError Instr :=
  match frame with
  | slave :: fc :: startHi :: startLo :: qtyHi :: qtyLo :: rest =>
    if rest.length < 2 then .error .frameTooShort
    else if frame.length > txCap then .error .frameTooLong
    else if crcCheck frame then
      requestOf fc slave (word startHi startLo) (word qtyHi qtyLo) (rest.take (rest.length - 2))
    else .error .frameCrc
  | _ => .error .frameTooShort

/-- An exception response: five bytes, bit 7 of byte 1 set (R77, R81). -/
def decodeResponse : List Byte → Except DecodeError Instr
  | [slave, code1, code, crcLo, crcHi] =>
    if code1.getLsbD 7 then .ok (.exceptionResponse slave (code1.setWidth 7) code crcLo crcHi)
    else .error .exceptionBitClear
  | _ => .error .responseLength

/-- The decode row of a type. -/
def decodeRowOf : NumType → Nat → Order → Instr
  | .u16, start, order => .decodeU16 start order
  | .s16, start, order => .decodeS16 start order
  | .u32, start, order => .decodeU32 start order
  | .s32, start, order => .decodeS32 start order
  | .f32, start, order => .decodeF32 start order
  | .u64, start, order => .decodeU64 start order
  | .s64, start, order => .decodeS64 start order
  | .f64, start, order => .decodeF64 start order

/-- The row a descriptor byte stands for, given its start index (R84, R88, R190). -/
def encRowOf (enc : Byte) (start : Nat) : Except DecodeError Instr :=
  match descriptorOf enc with
  | some d => .ok (decodeRowOf d.type start d.order)
  | none =>
    if reservedBits enc = 0 ∧ widthCode enc = 0 ∧ kindCode enc = 2 then .ok (.decodeF16Reserved start (orderOf enc))
    else .error .reservedDescriptor

/-- A decode in the descriptor format: the descriptor byte, then the start index. -/
def decodeEnc : List Byte → Parsed Instr
  | [] => .error .empty
  | enc :: rest =>
    match decodeNat rest with
    | .error e => .error e
    | .ok (start, rest') =>
      match encRowOf enc start with
      | .error e => .error e
      | .ok i => .ok (i, rest')

/-- A decoder that takes all the bytes. -/
def takesAll : Except DecodeError Instr → Parsed Instr
  | .error e => .error e
  | .ok i => .ok (i, [])

/-- The instruction at the head of the bytes of a format, and the bytes after it. -/
def decodeBytes : Format → List Byte → Parsed Instr
  | .cmd, bytes => decodeCmd bytes
  | .aduRequest, bytes => takesAll (decodeRequest bytes)
  | .aduResponse, bytes => takesAll (decodeResponse bytes)
  | .enc, bytes => decodeEnc bytes

/-- The instruction an encoded command is. -/
def decode (c : Command) : Except DecodeError Instr :=
  match decodeBytes c.format c.bytes with
  | .error e => .error e
  | .ok (i, rest) => if rest.isEmpty then .ok i else .error .trailing

/-- A natural in base 128, lowest digit first; `fuel` bounds the digits (log 2). -/
def encodeNatFuel : Nat → Nat → List Byte
  | 0, n => [BitVec.ofNat 8 n]
  | fuel + 1, n =>
    if n < 128 then [BitVec.ofNat 8 n]
    else BitVec.ofNat 8 (n % 128 + 128) :: encodeNatFuel fuel (n / 128)

/-- A natural in base 128: it has at most as many digits as bits (log 2). -/
def encodeNat (n : Nat) : List Byte := encodeNatFuel n.log2 n

/-- A byte sequence after its length (log 2). -/
def encodeSeq (bytes : List Byte) : List Byte := encodeNat bytes.length ++ bytes

/-- The operands of BUILD and EXEC. -/
def encodeRequestOperands (slave fc : Byte) (start qty : Reg) (extra : List Byte) : List Byte :=
  [slave, fc, hi8 start, lo8 start, hi8 qty, lo8 qty] ++ encodeSeq extra

/-- A request frame, as BUILD lays it out (R72, R110). -/
def encodeRequest (fc slave : Byte) (start qty : Reg) (extra : List Byte) : Command :=
  ⟨.aduRequest, appendCrc (requestBody slave fc start qty extra)⟩

/-- A decode in the descriptor format. -/
def encodeDecodeRow (low start : Nat) (order : Order) : Command :=
  ⟨.enc, encByte low order :: encodeNat start⟩

/-- The bytes of an instruction in its format. -/
def encode : Instr → Command
  | .crc16 data => ⟨.cmd, 0x00#8 :: encodeSeq data⟩
  | .crcCheck frame => ⟨.cmd, 0x01#8 :: encodeSeq frame⟩
  | .build slave fc start qty extra => ⟨.cmd, 0x02#8 :: encodeRequestOperands slave fc start qty extra⟩
  | .exec slave fc start qty extra => ⟨.cmd, 0x03#8 :: encodeRequestOperands slave fc start qty extra⟩
  | .result => ⟨.cmd, [0x04#8]⟩
  | .bankRead i => ⟨.cmd, 0x05#8 :: encodeNat i⟩
  | .decode start enc => ⟨.cmd, 0x06#8 :: enc :: encodeNat start⟩
  | .reservedOp7 => ⟨.cmd, [0x07#8]⟩
  | .readCoils slave start qty extra => encodeRequest 0x01#8 slave start qty extra
  | .readDiscreteInputs slave start qty extra => encodeRequest 0x02#8 slave start qty extra
  | .readHoldingRegisters slave start qty extra => encodeRequest 0x03#8 slave start qty extra
  | .readInputRegisters slave start qty extra => encodeRequest 0x04#8 slave start qty extra
  | .writeSingleCoil slave start qty extra => encodeRequest 0x05#8 slave start qty extra
  | .writeSingleRegister slave start qty extra => encodeRequest 0x06#8 slave start qty extra
  | .writeMultipleCoils slave start qty extra => encodeRequest 0x0F#8 slave start qty extra
  | .writeMultipleRegisters slave start qty extra => encodeRequest 0x10#8 slave start qty extra
  | .maskWriteRegister slave start qty extra => encodeRequest 0x16#8 slave start qty extra
  | .readWriteMultipleRegisters slave start qty extra => encodeRequest 0x17#8 slave start qty extra
  | .exceptionResponse slave fc code crcLo crcHi => ⟨.aduResponse, [slave, 1#1 ++ fc, code, crcLo, crcHi]⟩
  | .decodeU16 start order => encodeDecodeRow 0x00 start order
  | .decodeS16 start order => encodeDecodeRow 0x04 start order
  | .decodeU32 start order => encodeDecodeRow 0x01 start order
  | .decodeS32 start order => encodeDecodeRow 0x05 start order
  | .decodeF32 start order => encodeDecodeRow 0x09 start order
  | .decodeU64 start order => encodeDecodeRow 0x02 start order
  | .decodeS64 start order => encodeDecodeRow 0x06 start order
  | .decodeF64 start order => encodeDecodeRow 0x0A start order
  | .decodeF16Reserved start order => encodeDecodeRow 0x08 start order

/-- Whether a byte is one of the ten listed function codes (R5 `FC_SET`, R79). -/
def isListedCode (k : Nat) : Bool :=
  [0x01, 0x02, 0x03, 0x04, 0x05, 0x06, 0x0F, 0x10, 0x16, 0x17].contains k

/-- The format a bare word of the opcode table is read in (DESIGN CHOICE, log 6). The table numbers four formats from bit 0
and ten of its rows share their word with a row of another format; no word can tell those apart. A word of more than one
byte is a request's; a one-byte word below 8 is a command's selector; a listed function code is a request's; a word with
bit 7 set is a response's; any other is a descriptor. -/
def tableFormat (nbits w : Nat) : Format :=
  let key := w % 256
  if nbits > 8 then .aduRequest
  else if key < 8 then .cmd
  else if isListedCode key then .aduRequest
  else if key ≥ 128 then .aduResponse
  else .enc

/-- The bytes at the head of a zero-filled encoding that one instruction takes. -/
def zeroFilled (f : Format) (key : Byte) : Command :=
  let full := key :: List.replicate 8 0#8
  match decodeBytes f full with
  | .error _ => ⟨f, full⟩
  | .ok (_, rest) => ⟨f, full.take (full.length - rest.length)⟩

/-- The whole encoding a bare table word stands for, every operand zero. In a request and a response the word is byte 1
(R72, R77); a request gets the CRC its bytes need (log 6). -/
def tableCommand (nbits w : Nat) : Command :=
  let key := BitVec.ofNat 8 w
  match tableFormat nbits w with
  | .cmd => zeroFilled .cmd key
  | .enc => zeroFilled .enc key
  | .aduRequest => ⟨.aduRequest, appendCrc (requestBody 0#8 key 0#16 0#16 [])⟩
  | .aduResponse => ⟨.aduResponse, [0#8, key, 0#8, 0#8, 0#8]⟩

/-- The instruction the decoder reads from a bare word of the opcode table (log 6). -/
def decodeTableWord (nbits w : Nat) : Option Instr :=
  match decode (tableCommand nbits w) with
  | .ok i => some i
  | .error _ => none

end Sys2Proof
end

