-- ==== Sys2Proof/Machine/State.lean ====
section
/-! DEFINITION. The machine's state (10_state.md), its reasons to stop, and the state after power-on reset (R38). -/

namespace Sys2Proof.Machine

/-- The engine's sequencing state; it plays the part of a program counter (R21). -/
inductive Phase where
  | idle
  | sending
  | awaitingHeader
  | awaitingBody
  | done
deriving DecidableEq, Repr

/-- The sub-state of `Sending`, in this order (R22). -/
inductive SendStep where
  | drain
  | preHook
  | tx
  | flush
  | postHook
  | settle
deriving DecidableEq, Repr

/-- The result of a transaction (R29, R200). `None` is the absence of one. -/
inductive Status where
  | success
  | modbusException (code : Byte)
  | invalidSlaveId
  | invalidFunction
  | responseTimeout
  | invalidCrc
  | buildOverflow
deriving DecidableEq, Repr

/-- One call the engine makes to the outside world (R34). -/
inductive Event where
  | write (b : Byte)
  | flush
  | pre
  | post
  | read (answer : Option Byte)
deriving DecidableEq, Repr

/-- An IEEE-754 datum (R10): `finite` is `(-1)^negative * significand * 2^exponent`, the signed zeros and the subnormals
among them; a NaN keeps its fraction field as its payload (log 18). -/
inductive Datum where
  | finite (negative : Bool) (significand : Nat) (exponent : Int)
  | infinity (negative : Bool)
  | nan (negative : Bool) (payload : Nat)
deriving DecidableEq, Repr

/-- The number a DECODE returns (R186 to R189): an integer, or the exact datum of one width. -/
inductive Number where
  | unsigned (n : Nat)
  | signed (z : Int)
  | binary32 (d : Datum)
  | binary64 (d : Datum)
deriving DecidableEq, Repr

/-- The errors a command can return (R202, R203). -/
inductive Error where
  | decodeOutOfRange
  | buildOverflow
deriving DecidableEq, Repr

/-- The cases R204 has the model refuse. -/
inductive RefusedCase where
  /-- EXEC, RESULT, BANK_READ or DECODE while busy (R35). -/
  | busy
  /-- EXEC with `fc` outside FC_SET (R80). -/
  | functionCode
  /-- EXEC with `slave` outside 1 .. 247 (R89). -/
  | slaveAddress
  /-- RESULT at `Idle` (R144). -/
  | noResult
  /-- DECODE with a reserved descriptor (R88). -/
  | reservedDescriptor
  /-- A command with `op = 7` (R71). -/
  | reservedSelector
deriving DecidableEq, Repr

/-- What the last command answered (R12). The model's own field: the spec gives the answers and no place for them (log 8). -/
inductive Reply where
  | nothing
  | crc (value : Reg)
  | verdict (ok : Bool)
  | frame (bytes : List Byte)
  | started
  | result (status : Status) (code : Byte) (bankLen : Nat)
  | register (value : Reg)
  | number (value : Number)
  | error (e : Error)
  | refused (c : RefusedCase)
deriving DecidableEq, Repr

/-- Who takes a step: the four agents of R4, and the platform, which R4 does not list and which only resets the block and
sets `CFG` (R32, R221, R222; DESIGN CHOICE, log 13). -/
inductive Agent where
  | caller
  | engine
  | transport
  | timer
  | platform
deriving DecidableEq, Repr

/-- One agent's step (R4, R62): an encoded instruction is issued by the caller or, where it is a response frame, begun by the
transport; the engine takes its step; the timer ticks; the transport receives a byte; the platform resets the block with the
configuration it sets. -/
inductive Turn where
  | command (c : Command)
  | engine
  | tick
  | arrive (b : Byte)
  | reset (cfg : Cfg)
deriving DecidableEq, Repr

/-- The one agent whose step a turn is (R4). -/
def Turn.agent : Turn → Agent
  | .command c =>
    match c.format with
    | .cmd | .aduRequest | .enc => .caller
    | .aduResponse => .transport
  | .engine => .engine
  | .tick => .timer
  | .arrive _ => .transport
  | .reset _ => .platform

/-- Why the machine stops. Each is raised only in a state that no run reaches (Safety.lean's `Inv` rules them all out), where
the spec gives the step no effect; stopping is safe (log 16). -/
inductive Fault where
  /-- The Tx step with `tx_idx` past the frame: R127 reads no byte there. Raised by `tx`. Safe. -/
  | txIndexPastFrame
  /-- An append at `RX_CAP`: "The append never passes `RX_CAP`" (R132). Raised by `poll`. Safe. -/
  | rxOverflow
  /-- A bank index past `BANK_CAP` although below `bank_len` (R31). Raised by BANK_READ and DECODE. Safe. -/
  | bankIndexPastCapacity
  /-- RESULT outside `Idle`, not busy and with no status (R29). Raised by RESULT. Safe. -/
  | doneWithoutStatus
  /-- Length resolution for a function code without a length rule (R78). Raised by `headerCheck`. Safe. -/
  | noLengthRule
deriving DecidableEq, Repr

/-- Why a step has no meaning. -/
inductive Refusal where
  /-- An instruction of the opcode table without a meaning yet. Raised by `exec`. Safe. -/
  | notModelled (mnemonic : String)
  /-- A command whose bytes are no instruction; the spec gives no command with such bytes. Raised by `takeTurn`. Safe (log 17). -/
  | undecodable (why : DecodeError)
deriving DecidableEq, Repr

/-- Everything the spec gives the machine, and the model's own `reply` and `schedule`. -/
structure State where
  /-- R21 -/
  phase : Phase
  /-- R22, read only while `phase = Sending`; elsewhere it keeps its last value (DESIGN CHOICE, log 20) -/
  sendStep : SendStep
  /-- R23 -/
  reqSlave : Byte
  /-- R23 -/
  reqFc : Byte
  /-- R24, the frame being sent -/
  txf : List Byte
  /-- R24 -/
  txIdx : Nat
  /-- R25 -/
  drainCount : Nat
  /-- R26, the response accumulator `Rx[0 .. 259]` -/
  rx : Vector Byte rxCap
  /-- R26 -/
  rxLen : Nat
  /-- R27; none is `Unknown` -/
  expected : Option Nat
  /-- R28 -/
  timer : Nat
  /-- R29; none is `None` -/
  status : Option Status
  /-- R30, the register bank `Bank[0 .. 127]` -/
  bank : Vector Reg bankCap
  /-- R31 -/
  bankLen : Nat
  /-- R32 -/
  cfg : Cfg
  /-- R33, the transport's received and unread bytes, head first -/
  pending : List Byte
  /-- R33, the bytes written, in order -/
  sent : List Byte
  /-- R34, in order -/
  events : List Event
  /-- The sticky mark of R204 and U19 (log 7) -/
  refused : Bool
  /-- The model's own: what the last command answered (log 8) -/
  reply : Reply
  /-- The model's own: the turns still to come, head first (log 1) -/
  schedule : List Turn
deriving DecidableEq, Repr

/-- The state of R38 after a power-on reset, given what reset does not decide: the configuration the platform sets, the
transport's `pending`, the sticky mark and the turns to come. The contents R38 leaves unspecified are zero, and `send_step`
is Drain (DESIGN CHOICE, log 9). -/
def State.powerOn (cfg : Cfg) (pending : List Byte) (refused : Bool) (schedule : List Turn) : State where
  phase := .idle
  sendStep := .drain
  reqSlave := 0#8
  reqFc := 0#8
  txf := []
  txIdx := 0
  drainCount := 0
  rx := Vector.replicate rxCap 0#8
  rxLen := 0
  expected := none
  timer := 0
  status := none
  bank := Vector.replicate bankCap 0#16
  bankLen := 0
  cfg := cfg
  pending := pending
  sent := []
  events := []
  refused := refused
  reply := .nothing
  schedule := schedule

/-- The machine right after power-on reset (R38, R220), with nothing scheduled. -/
def State.reset : State :=
  State.powerOn Config.platformCfg Config.pendingAtPowerOn false []

end Sys2Proof.Machine
end

