-- ==== Sys2Proof/Machine/Flags.lean ====
section
/-! DEFINITION. What is computed from the state and not stored: the block has no flag register (10_state.md R36). -/

namespace Sys2Proof.Machine

/-- `busy`: a transaction is in flight (R35). -/
def busy (s : State) : Bool :=
  match s.phase with
  | .sending | .awaitingHeader | .awaitingBody => true
  | .idle | .done => false

/-- A receiving phase, where the engine's step is a poll (R124). -/
def receiving (s : State) : Bool :=
  match s.phase with
  | .awaitingHeader | .awaitingBody => true
  | .idle | .sending | .done => false

/-- The exception bit of a response, bit 7 of its byte 1 (R36, R81). -/
def exceptionBit (byte1 : Byte) : Bool := byte1.getLsbD 7

/-- Byte 1 of a response with the exception bit masked off (R81). -/
def maskedFunction (byte1 : Byte) : Byte := byte1 &&& 0x7F#8

/-- The 8-bit result code of a status (R83). -/
def statusCode : Status → Byte
  | .success => 0x00#8
  | .modbusException c => c
  | .invalidSlaveId => 0xE0#8
  | .invalidFunction => 0xE1#8
  | .responseTimeout => 0xE2#8
  | .invalidCrc => 0xE3#8
  | .buildOverflow => Config.buildOverflowCode

/-- The numeric code of an error, where one is wanted (R5, R83). -/
def errorCode : Error → Byte
  | .decodeOutOfRange => Config.decodeOorCode
  | .buildOverflow => Config.buildOverflowCode

end Sys2Proof.Machine
end

