-- ==== Sys2Proof/Machine/Operands.lean ====
section
/-! DEFINITION. Operand forms: function-code classes and response lengths (30_encoding.md R78 to R80, R89), the four folds
and the readings of a folded pattern (45_numeric_decode.md R182 to R189). -/

namespace Sys2Proof.Machine

/-- The classes of the ten function codes, reads split by their packing (R79). -/
inductive FcClass where
  | bitRead
  | wordRead
  | singleWrite
  | multipleWrite
  | maskWrite
deriving DecidableEq, Repr

/-- The class of a function code; none outside `FC_SET` (R5, R79, R80). -/
def fcClass (fc : Byte) : Option FcClass :=
  match fc.toNat with
  | 0x01 => some .bitRead
  | 0x02 => some .bitRead
  | 0x03 => some .wordRead
  | 0x04 => some .wordRead
  | 0x05 => some .singleWrite
  | 0x06 => some .singleWrite
  | 0x0F => some .multipleWrite
  | 0x10 => some .multipleWrite
  | 0x16 => some .maskWrite
  | 0x17 => some .wordRead
  | _ => none

/-- `fc ∈ FC_SET` (R5). -/
def listedCode (fc : Byte) : Bool := (fcClass fc).isSome

/-- A read-type function code (R74). -/
def readCode (fc : Byte) : Bool :=
  match fcClass fc with
  | some .bitRead | some .wordRead => true
  | _ => false

/-- `slave ∈ 1 .. 247` (R5, R89). -/
def legalSlave (slave : Byte) : Bool := decide (1 ≤ slave.toNat ∧ slave.toNat ≤ 247)

/-- `LEN(fc, bc)`, the expected total length; none where R78 has no case. -/
def responseLength (fc byteCount : Byte) : Option Nat :=
  match fcClass fc with
  | some .bitRead | some .wordRead => some (5 + byteCount.toNat)
  | some .singleWrite | some .multipleWrite => some 8
  | some .maskWrite => some 10
  | none => none

/-- The width of a type in bits (R85). -/
def typeBits : NumType → Nat
  | .u16 | .s16 => 16
  | .u32 | .s32 | .f32 => 32
  | .u64 | .s64 | .f64 => 64

/-- `n = w / 16`, the registers a decode of the type folds (R85). -/
def typeRegs (t : NumType) : Nat := typeBits t / 16

/-- The registers in the order a fold joins them, most significant first (R182 to R185). -/
def orderRegs : Order → List Reg → List Reg
  | .be, regs => regs
  | .le, regs => regs.reverse
  | .beSwapped, regs => regs.map swap16
  | .leSwapped, regs => (regs.map swap16).reverse

/-- `FOLD(order, r)`, a `w`-bit pattern (R182 to R185). -/
def foldRegs (w : Nat) (order : Order) (regs : List Reg) : BitVec w :=
  joinRegs w (orderRegs order regs)

/-- The datum of a sign, a biased exponent field and a fraction field, in a format with `eb` exponent bits and `fb`
fraction bits (R10, R188, R189; the layout is general knowledge there, log 18). -/
def datumOfFields (eb fb : Nat) (negative : Bool) (e f : Nat) : Datum :=
  let bias : Int := 2 ^ (eb - 1) - 1
  if e = 2 ^ eb - 1 then
    if f = 0 then .infinity negative else .nan negative f
  else if e = 0 then .finite negative f (1 - bias - fb)
  else .finite negative (2 ^ fb + f) (e - bias - fb)

/-- `f32_of_bits`: bit 31 the sign, bits 30 .. 23 the exponent, bits 22 .. 0 the fraction (R10, R188). -/
def f32OfBits (v : BitVec 32) : Datum :=
  datumOfFields 8 23 (v.getLsbD 31) (v.extractLsb' 23 8).toNat (v.extractLsb' 0 23).toNat

/-- `f64_of_bits`: bit 63 the sign, bits 62 .. 52 the exponent, bits 51 .. 0 the fraction (R10, R189). -/
def f64OfBits (v : BitVec 64) : Datum :=
  datumOfFields 11 52 (v.getLsbD 63) (v.extractLsb' 52 11).toNat (v.extractLsb' 0 52).toNat

/-- The encoding of a datum in a format, as a number: the way back from `datumOfFields` (R10). -/
def encodeDatum (eb fb : Nat) (d : Datum) : Nat :=
  let bias : Int := 2 ^ (eb - 1) - 1
  let pack := fun (negative : Bool) (e f : Nat) => (if negative then 2 ^ (eb + fb) else 0) + e * 2 ^ fb + f
  match d with
  | .infinity negative => pack negative (2 ^ eb - 1) 0
  | .nan negative payload => pack negative (2 ^ eb - 1) payload
  | .finite negative significand exponent =>
    if significand < 2 ^ fb then pack negative 0 significand
    else pack negative (exponent + bias + fb).toNat (significand - 2 ^ fb)

/-- The 32-bit pattern of a binary32 datum. -/
def f32Bits (d : Datum) : BitVec 32 := BitVec.ofNat 32 (encodeDatum 8 23 d)

/-- The 64-bit pattern of a binary64 datum. -/
def f64Bits (d : Datum) : BitVec 64 := BitVec.ofNat 64 (encodeDatum 11 52 d)

/-- `INTERP(kind, w, FOLD(order, r))` for each legal pair (R186 to R189, R191 to R198). -/
def interpret (d : Descriptor) (regs : List Reg) : Number :=
  match d.type with
  | .u16 => .unsigned (foldRegs 16 d.order regs).toNat
  | .s16 => .signed (foldRegs 16 d.order regs).toInt
  | .u32 => .unsigned (foldRegs 32 d.order regs).toNat
  | .s32 => .signed (foldRegs 32 d.order regs).toInt
  | .f32 => .binary32 (f32OfBits (foldRegs 32 d.order regs))
  | .u64 => .unsigned (foldRegs 64 d.order regs).toNat
  | .s64 => .signed (foldRegs 64 d.order regs).toInt
  | .f64 => .binary64 (f64OfBits (foldRegs 64 d.order regs))

end Sys2Proof.Machine
end

