-- ==== Sys2Proof/Machine/Ops.lean ====
section
/-! DEFINITION. The named operations every step is written from: the answer of a command, the terminal entry and the way out
of it, state access (00_scope.md R11), and the transport's calls (60_exceptions.md R213). -/

namespace Sys2Proof.Machine

/-- The outcomes of a step of this machine. -/
abbrev Result := Host.Outcome State Fault Refusal

/-- The second step, from where the first leads. -/
def andThen (r : Result) (f : State → Result) : Result :=
  match r with
  | .next s => f s
  | .fault e => .fault e
  | .refused e => .refused e

/-- A command's answer; no command's answer touches anything else (R61). -/
def answer (r : Reply) (s : State) : State := { s with reply := r }

/-- A refusal: nothing of the block changes, and the sticky mark is set (R121, R204, U19; log 7). -/
def refuse (c : RefusedCase) (s : State) : State := { s with refused := true, reply := .refused c }

/-- `finish(S)`, the terminal entry: "`status <- S` and then `phase <- Done`" (R12, R208). No hook is called. -/
def finish (st : Status) (s : State) : State := { s with status := some st, phase := .done }

/-- Leaving a terminal state, or Idle: EXEC's one step resets the transaction state and latches the request (R122, R209).
`timer <- 0` is R122's, and by 90_conflicts.md C4 the timer does not carry into the next transaction; against R212's "No
caller operation reads or writes it" the model follows these (DEDUCED, log 21). -/
def latchRequest (slave fc : Byte) (s : State) : State :=
  { s with
    reqSlave := slave
    reqFc := fc
    rxLen := 0
    expected := none
    bankLen := 0
    status := none
    timer := 0
    drainCount := 0
    txIdx := 0 }

/-- A record in the event log (R34). -/
def logEvent (e : Event) (s : State) : State := { s with events := s.events ++ [e] }

/-- `T.write(b)` (R11, R60). -/
def writeByte (b : Byte) (s : State) : State := logEvent (.write b) { s with sent := s.sent ++ [b] }

/-- `T.flush()`: every written byte has left when it returns (R60, R214; log 15). -/
def flushBus (s : State) : State := logEvent .flush s

/-- `H.pre()`, where a pre-transmission hook is configured (R126). -/
def callPreHook (s : State) : State := if s.cfg.hasPreHook then logEvent .pre s else s

/-- `H.post()`, where a post-transmission hook is configured (R129). -/
def callPostHook (s : State) : State := if s.cfg.hasPostHook then logEvent .post s else s

/-- The answer of `T.try_read()`: the head of `pending`, or none (R59). -/
def readAnswer (s : State) : Option Byte := s.pending.head?

/-- `T.try_read()`: the byte it answers is gone from `pending`; on an empty queue only the log grows (R34, R59). -/
def tryRead (s : State) : State := logEvent (.read s.pending.head?) { s with pending := s.pending.tail }

/-- `Rx[i]` (R11). Only indices below `rx_len` are ever read (R26). -/
def rxByte (s : State) (i : Nat) : Byte := (s.rx[i]?).getD 0#8

/-- The accumulated bytes, `Rx[0 .. rx_len-1]`. -/
def rxBytes (s : State) : List Byte := s.rx.toList.take s.rxLen

/-- `Rx.append(b)` (R11, R132). -/
def rxAppend (b : Byte) (s : State) : State :=
  { s with rx := s.rx.setIfInBounds s.rxLen b, rxLen := s.rxLen + 1 }

/-- `Bank[i]` (R11). Only indices below `bank_len` and the capacity are ever read (R31, R51). -/
def bankReg (s : State) (i : Nat) : Reg := (s.bank[i]?).getD 0#16

/-- `MemRead(i, n)`: `n` registers from index `i` on (R11). -/
def bankRegs (s : State) (i n : Nat) : List Reg := (List.range n).map fun k => bankReg s (i + k)

/-- The registers written from index `i` on; the others keep their stale values (R170). -/
def setRegs (bank : Vector Reg bankCap) (i : Nat) : List Reg → Vector Reg bankCap
  | [] => bank
  | r :: rest => setRegs (bank.setIfInBounds i r) (i + 1) rest

/-- The bank filled from its start, and its length (R170 to R172). -/
def fillBank (regs : List Reg) (s : State) : State :=
  { s with bank := setRegs s.bank 0 regs, bankLen := regs.length }

/-- `Tick`: `timer <- timer + 1`, and nothing else (R138). -/
def tick (s : State) : State := { s with timer := s.timer + 1 }

/-- `Arrive(b)`: b joins the tail of `pending` (R139). -/
def arrive (b : Byte) (s : State) : State := { s with pending := s.pending ++ [b] }

/-- Turns put before all others still to come (log 1). -/
def comeNext (turns : List Turn) (s : State) : State := { s with schedule := turns ++ s.schedule }

/-- Reset (R220, R221): every piece of state at R38's value, `pending` kept, no hook called. The platform sets `CFG` (R32,
R222); the sticky mark stays (log 13). -/
def resetBlock (cfg : Cfg) (s : State) : State :=
  State.powerOn cfg s.pending s.refused s.schedule

end Sys2Proof.Machine
end

