-- ==== Sys2Proof/Machine/CrcCommands.lean ====
section
/-! DEFINITION. The meanings of CRC16, CRC_CHECK and BUILD: pure functions, in any phase (40_crc.md, 41_frame_builder.md). -/

namespace Sys2Proof.Machine

/-- CRC16 (R100). -/
def execCrc16 (data : List Byte) (s : State) : Result := .next (answer (.crc (crc16 data)) s)

/-- CRC_CHECK (R102). -/
def execCrcCheck (frame : List Byte) (s : State) : Result := .next (answer (.verdict (crcCheck frame)) s)

/-- BUILD (R110, R111, R113): the frame, or BuildOverflow. -/
def execBuild (slave fc : Byte) (start qty : Reg) (extra : List Byte) (s : State) : Result :=
  match buildFrame slave fc start qty extra with
  | some f => .next (answer (.frame f) s)
  | none => .next (answer (.error .buildOverflow) s)

end Sys2Proof.Machine
end

