-- ==== Sys2Proof/Machine/Numeric.lean ====
section
/-! DEFINITION. The meanings of BANK_READ, DECODE and the decode rows (44_register_bank.md R175, 45_numeric_decode.md R180
to R198), and of the reserved selector (30_encoding.md R71). -/

namespace Sys2Proof.Machine

/-- FETCH's range check on `n` registers from `start` on, then their reading (R51, R181). A range below `bank_len` that
passes the capacity stops (log 16). -/
def readBank (start n : Nat) (f : List Reg → Reply) (s : State) : Result :=
  if s.bankLen < start + n then .next (answer (.error .decodeOutOfRange) s)
  else if bankCap < start + n then .fault .bankIndexPastCapacity
  else .next (answer (f (bankRegs s start n)) s)

/-- The answer of a BANK_READ from the one register it fetched. -/
def registerReply : List Reg → Reply
  | r :: _ => .register r
  | [] => .nothing

/-- BANK_READ: refused while busy; DecodeOutOfRange unless `i < bank_len` (R175). -/
def execBankRead (i : Nat) (s : State) : Result :=
  if busy s then .next (refuse .busy s) else readBank i 1 registerReply s

/-- DECODE with a legal descriptor, once not busy (R180, R181). -/
def decodeBank (start : Nat) (d : Descriptor) (s : State) : Result :=
  readBank start (typeRegs d.type) (fun regs => .number (interpret d regs)) s

/-- DECODE of one of the eight legal types: refused while busy (R180). -/
def decodeTyped (t : NumType) (start : Nat) (order : Order) (s : State) : Result :=
  if busy s then .next (refuse .busy s) else decodeBank start ⟨t, order⟩ s

/-- DECODE: refused while busy and for a reserved descriptor (R180, R88). -/
def execDecode (start : Nat) (enc : Byte) (s : State) : Result :=
  if busy s then .next (refuse .busy s)
  else
    match descriptorOf enc with
    | none => .next (refuse .reservedDescriptor s)
    | some d => decodeBank start d s

/-- The reserved selector: the command is refused (R71). -/
def execReservedOp7 (s : State) : Result := .next (refuse .reservedSelector s)

/-- DECODE.U16 (R191; log 5). -/
def execDecodeU16 (start : Nat) (order : Order) (s : State) : Result := decodeTyped .u16 start order s

/-- DECODE.S16 (R192; log 5). -/
def execDecodeS16 (start : Nat) (order : Order) (s : State) : Result := decodeTyped .s16 start order s

/-- DECODE.U32 (R193; log 5). -/
def execDecodeU32 (start : Nat) (order : Order) (s : State) : Result := decodeTyped .u32 start order s

/-- DECODE.S32 (R194; log 5). -/
def execDecodeS32 (start : Nat) (order : Order) (s : State) : Result := decodeTyped .s32 start order s

/-- DECODE.F32 (R195; log 5). -/
def execDecodeF32 (start : Nat) (order : Order) (s : State) : Result := decodeTyped .f32 start order s

/-- DECODE.U64 (R196; log 5). -/
def execDecodeU64 (start : Nat) (order : Order) (s : State) : Result := decodeTyped .u64 start order s

/-- DECODE.S64 (R197; log 5). -/
def execDecodeS64 (start : Nat) (order : Order) (s : State) : Result := decodeTyped .s64 start order s

/-- DECODE.F64 (R198; log 5). -/
def execDecodeF64 (start : Nat) (order : Order) (s : State) : Result := decodeTyped .f64 start order s

/-- DECODE.F16_RESERVED: refused, in any phase (R88, R190); while busy the refusal is R180's first. -/
def execDecodeF16Reserved (_start : Nat) (_order : Order) (s : State) : Result :=
  .next (refuse (if busy s then .busy else .reservedDescriptor) s)

end Sys2Proof.Machine
end

