-- ==== Sys2Proof/Machine/Engine.lean ====
section
/-! DEFINITION. The engine's steps (42_transaction.md R124 to R137) and the disassembly inside the last of them
(44_register_bank.md R170 to R173). -/

namespace Sys2Proof.Machine

/-- DRAIN: discards stale input, one byte a step, up to `CFG.drain_max` bytes (R125). -/
def drain (s : State) : State :=
  if s.drainCount = s.cfg.drainMax then { s with sendStep := .preHook }
  else
    match readAnswer s with
    | none => { tryRead s with sendStep := .preHook }
    | some _ => { tryRead s with drainCount := s.drainCount + 1 }

/-- PRE_HOOK (R126). -/
def preHook (s : State) : State := { callPreHook s with sendStep := .tx }

/-- TX: one byte of the frame a step, in index order (R127). -/
def tx (s : State) : Result :=
  match s.txf[s.txIdx]? with
  | none => .fault .txIndexPastFrame
  | some b =>
    .next { writeByte b s with
      txIdx := s.txIdx + 1
      sendStep := if s.txIdx + 1 = s.txf.length then .flush else s.sendStep }

/-- FLUSH (R128). -/
def flush (s : State) : State := { flushBus s with sendStep := .postHook }

/-- POST_HOOK: the hook, and the settling delay starts (R129). -/
def postHook (s : State) : State := { callPostHook s with sendStep := .settle, timer := 0 }

/-- SETTLE: holds until `CFG.settle_ticks` ticks have passed, then the deadline starts (R130). A hold changes nothing (log 14).
`send_step`, unspecified from then on (R22), stays Settle (DESIGN CHOICE, log 20). -/
def settle (s : State) : State :=
  if s.timer < s.cfg.settleTicks then s else { s with phase := .awaitingHeader, timer := 0 }

/-- DISASM_BITS's registers: low byte first, a trailing odd byte with a zero high byte (R171). -/
def disasmBits : List Byte → List Reg
  | [] => []
  | [lo] => [word 0x00#8 lo]
  | lo :: hi :: rest => word hi lo :: disasmBits rest

/-- DISASM_WORDS's registers: high byte first, a trailing odd byte dropped (R172). -/
def disasmWords : List Byte → List Reg
  | [] => []
  | [_] => []
  | hi :: lo :: rest => word hi lo :: disasmWords rest

/-- The payload of a read response, `Rx[3 .. 2+bc]` (R170). -/
def payload (s : State) : List Byte := (s.rx.toList.drop 3).take (rxByte s 2).toNat

/-- DISASSEMBLE: the packing is the function code's; a write writes nothing (R170, R173). -/
def disassemble (s : State) : State :=
  match fcClass s.reqFc with
  | some .bitRead => fillBank (disasmBits (payload s)) s
  | some .wordRead => fillBank (disasmWords (payload s)) s
  | some .singleWrite | some .multipleWrite | some .maskWrite | none => s

/-- COMPLETE: the CRC, then the disassembly and success (R135, R136). -/
def complete (s : State) : State :=
  if crcCheck (rxBytes s) then finish .success (disassemble s) else finish .invalidCrc s

/-- HEADER_CHECK: slave, function, exception bit, in this order, then the length (R133, R134). -/
def headerCheck (s : State) : Result :=
  if rxByte s 0 ≠ s.reqSlave then .next (finish .invalidSlaveId s)
  else if maskedFunction (rxByte s 1) ≠ s.reqFc then .next (finish .invalidFunction s)
  else if exceptionBit (rxByte s 1) then .next (finish (.modbusException (rxByte s 2)) s)
  else
    match responseLength s.reqFc (rxByte s 2) with
    | none => .fault .noLengthRule
    | some n => .next { s with expected := some n, phase := .awaitingBody }

/-- The header check of a poll, made when the append brings `rx_len` to 5 (R131). -/
def headerStage (s : State) : Result :=
  if s.phase = .awaitingHeader ∧ s.rxLen = 5 then headerCheck s else .next s

/-- The completion of a poll, made when `rx_len` is the expected length (R131). -/
def completeStage (s : State) : State :=
  if s.phase = .awaitingBody ∧ s.expected = some s.rxLen then complete s else s

/-- The rest of a poll once its read answered a byte (R131, R132). -/
def takeByte (b : Byte) (s : State) : Result :=
  if s.rxLen < rxCap then
    andThen (headerStage (rxAppend b s)) fun s' => .next (completeStage s')
  else .fault .rxOverflow

/-- POLL: the deadline first, then at most one byte (R131). -/
def poll (s : State) : Result :=
  if s.cfg.deadlineTicks ≤ s.timer then .next (finish .responseTimeout s)
  else
    match readAnswer s with
    | none => .next (tryRead s)
    | some b => takeByte b (tryRead s)

/-- The step of `Sending`, by sub-state (R124). -/
def sendingStep (s : State) : Result :=
  match s.sendStep with
  | .drain => .next (drain s)
  | .preHook => .next (preHook s)
  | .tx => tx s
  | .flush => .next (flush s)
  | .postHook => .next (postHook s)
  | .settle => .next (settle s)

/-- ENGINE_STEP (R124). At Idle and Done there is no step, so the engine's turn changes nothing (R137; log 14). -/
def engineStep (s : State) : Result :=
  match s.phase with
  | .idle => .next s
  | .done => .next s
  | .sending => sendingStep s
  | .awaitingHeader => poll s
  | .awaitingBody => poll s

end Sys2Proof.Machine
end

