-- ==== Sys2Proof/Machine/Transaction.lean ====
section
/-! DEFINITION. The meanings of EXEC, of the request of each function code, of an exception response, and of RESULT
(42_transaction.md R120 to R123, R133, R144; 43_function_codes.md R150 to R159). -/

namespace Sys2Proof.Machine

/-- Building the frame before the transport is touched: `Sending`, or BuildOverflow at once (R123). After BuildOverflow
`send_step`, unspecified outside `Sending` (R22), keeps the value it had (DESIGN CHOICE, log 20). -/
def launch (frame : Option (List Byte)) (s : State) : State :=
  match frame with
  | none => finish .buildOverflow s
  | some f => { s with txf := f, phase := .sending, sendStep := .drain }

/-- EXEC_START: refused while busy, for an unlisted code and for an illegal slave; else the transaction starts (R121 to R123). -/
def startTransaction (slave fc : Byte) (start qty : Reg) (extra : List Byte) (s : State) : Result :=
  if busy s then .next (refuse .busy s)
  else if !listedCode fc then .next (refuse .functionCode s)
  else if !legalSlave slave then .next (refuse .slaveAddress s)
  else
    .next (answer .started (launch (buildFrame slave fc start qty extra) (latchRequest slave fc s)))

/-- EXEC (R120). -/
def execExec (slave fc : Byte) (start qty : Reg) (extra : List Byte) (s : State) : Result :=
  startTransaction slave fc start qty extra s

/-- ReadCoils: `EXEC(slave, 0x01, start, qty, extra)` (R150; log 3). -/
def execReadCoils (slave : Byte) (start qty : Reg) (extra : List Byte) (s : State) : Result :=
  startTransaction slave 0x01#8 start qty extra s

/-- ReadDiscreteInputs: `EXEC(slave, 0x02, start, qty, extra)` (R151; log 3). -/
def execReadDiscreteInputs (slave : Byte) (start qty : Reg) (extra : List Byte) (s : State) : Result :=
  startTransaction slave 0x02#8 start qty extra s

/-- ReadHoldingRegisters: `EXEC(slave, 0x03, start, qty, extra)` (R152; log 3). -/
def execReadHoldingRegisters (slave : Byte) (start qty : Reg) (extra : List Byte) (s : State) : Result :=
  startTransaction slave 0x03#8 start qty extra s

/-- ReadInputRegisters: `EXEC(slave, 0x04, start, qty, extra)` (R153; log 3). -/
def execReadInputRegisters (slave : Byte) (start qty : Reg) (extra : List Byte) (s : State) : Result :=
  startTransaction slave 0x04#8 start qty extra s

/-- WriteSingleCoil: `EXEC(slave, 0x05, start, qty, extra)` (R154; log 3). -/
def execWriteSingleCoil (slave : Byte) (start qty : Reg) (extra : List Byte) (s : State) : Result :=
  startTransaction slave 0x05#8 start qty extra s

/-- WriteSingleRegister: `EXEC(slave, 0x06, start, qty, extra)` (R155; log 3). -/
def execWriteSingleRegister (slave : Byte) (start qty : Reg) (extra : List Byte) (s : State) : Result :=
  startTransaction slave 0x06#8 start qty extra s

/-- WriteMultipleCoils: `EXEC(slave, 0x0F, start, qty, extra)` (R156; log 3). -/
def execWriteMultipleCoils (slave : Byte) (start qty : Reg) (extra : List Byte) (s : State) : Result :=
  startTransaction slave 0x0F#8 start qty extra s

/-- WriteMultipleRegisters: `EXEC(slave, 0x10, start, qty, extra)` (R157; log 3). -/
def execWriteMultipleRegisters (slave : Byte) (start qty : Reg) (extra : List Byte) (s : State) : Result :=
  startTransaction slave 0x10#8 start qty extra s

/-- MaskWriteRegister: `EXEC(slave, 0x16, start, qty, extra)` (R158; log 3). -/
def execMaskWriteRegister (slave : Byte) (start qty : Reg) (extra : List Byte) (s : State) : Result :=
  startTransaction slave 0x16#8 start qty extra s

/-- ReadWriteMultipleRegisters: `EXEC(slave, 0x17, start, qty, extra)` (R159; log 3). -/
def execReadWriteMultipleRegisters (slave : Byte) (start qty : Reg) (extra : List Byte) (s : State) : Result :=
  startTransaction slave 0x17#8 start qty extra s

/-- What follows the first byte of an exception response: the transport delivers the other four (R77, R139), and where the
engine is receiving it takes the five polls that read them all (R131). Each is a turn of its own agent (R4; log 4). -/
def exceptionTurns (fc : BitVec 7) (code crcLo crcHi : Byte) (s : State) : List Turn :=
  [.arrive (1#1 ++ fc), .arrive code, .arrive crcLo, .arrive crcHi] ++
    if receiving s then List.replicate 5 .engine else []

/-- An exception response reaches the block: the transport delivers its first byte (R77, R139), and the turns that bring the
rest and poll for them come next (log 4). The poll of the fifth byte ends the transaction (R133, `headerCheck`). -/
def execExceptionResponse (slave : Byte) (fc : BitVec 7) (code crcLo crcHi : Byte) (s : State) : Result :=
  .next (comeNext (exceptionTurns fc code crcLo crcHi s) (arrive slave s))

/-- RESULT: the status, its code and `bank_len`; refused while busy and at Idle (R144). -/
def execResult (s : State) : Result :=
  if busy s then .next (refuse .busy s)
  else if s.phase = .idle then .next (refuse .noResult s)
  else
    match s.status with
    | some st => .next (answer (.result st (statusCode st) s.bankLen) s)
    | none => .fault .doneWithoutStatus

end Sys2Proof.Machine
end

