-- ==== Sys2Proof/Machine/Dispatch.lean ====
section
/-! DEFINITION. One arm per instruction: each is one direct call of its meaning. -/

namespace Sys2Proof.Machine

def exec (i : Instr) (s : State) : Host.Outcome State Fault Refusal :=
  match i with
  | .crc16 data => Sys2Proof.Machine.execCrc16 data s
  | .crcCheck frame => Sys2Proof.Machine.execCrcCheck frame s
  | .build slave fc start qty extra => Sys2Proof.Machine.execBuild slave fc start qty extra s
  | .exec slave fc start qty extra => Sys2Proof.Machine.execExec slave fc start qty extra s
  | .result => Sys2Proof.Machine.execResult s
  | .bankRead index => Sys2Proof.Machine.execBankRead index s
  | .decode start enc => Sys2Proof.Machine.execDecode start enc s
  | .reservedOp7 => Sys2Proof.Machine.execReservedOp7 s
  | .readCoils slave start qty extra => Sys2Proof.Machine.execReadCoils slave start qty extra s
  | .readDiscreteInputs slave start qty extra => Sys2Proof.Machine.execReadDiscreteInputs slave start qty extra s
  | .readHoldingRegisters slave start qty extra => Sys2Proof.Machine.execReadHoldingRegisters slave start qty extra s
  | .readInputRegisters slave start qty extra => Sys2Proof.Machine.execReadInputRegisters slave start qty extra s
  | .writeSingleCoil slave start qty extra => Sys2Proof.Machine.execWriteSingleCoil slave start qty extra s
  | .writeSingleRegister slave start qty extra => Sys2Proof.Machine.execWriteSingleRegister slave start qty extra s
  | .writeMultipleCoils slave start qty extra => Sys2Proof.Machine.execWriteMultipleCoils slave start qty extra s
  | .writeMultipleRegisters slave start qty extra => Sys2Proof.Machine.execWriteMultipleRegisters slave start qty extra s
  | .maskWriteRegister slave start qty extra => Sys2Proof.Machine.execMaskWriteRegister slave start qty extra s
  | .readWriteMultipleRegisters slave start qty extra => Sys2Proof.Machine.execReadWriteMultipleRegisters slave start qty extra s
  | .exceptionResponse slave fc code crcLo crcHi => Sys2Proof.Machine.execExceptionResponse slave fc code crcLo crcHi s
  | .decodeU16 start order => Sys2Proof.Machine.execDecodeU16 start order s
  | .decodeS16 start order => Sys2Proof.Machine.execDecodeS16 start order s
  | .decodeU32 start order => Sys2Proof.Machine.execDecodeU32 start order s
  | .decodeS32 start order => Sys2Proof.Machine.execDecodeS32 start order s
  | .decodeF32 start order => Sys2Proof.Machine.execDecodeF32 start order s
  | .decodeU64 start order => Sys2Proof.Machine.execDecodeU64 start order s
  | .decodeS64 start order => Sys2Proof.Machine.execDecodeS64 start order s
  | .decodeF64 start order => Sys2Proof.Machine.execDecodeF64 start order s
  | .decodeF16Reserved start order => Sys2Proof.Machine.execDecodeF16Reserved start order s

end Sys2Proof.Machine
end

