-- ==== Sys2Proof/Machine/Turns.lean ====
section
/-! DEFINITION. One agent's turn (00_scope.md R4, 20_memory.md R62), and what takes the place of an instruction fetch. -/

namespace Sys2Proof.Machine

/-- An encoded command is issued, or a response frame begun: it runs as the instruction its bytes decode to. Bytes that are
no instruction have no meaning (log 17). -/
def runCommand (c : Command) (s : State) : Result :=
  match decode c with
  | .ok i => exec i s
  | .error why => .refused (.undecodable why)

/-- The step of the agent whose turn it is (R4). -/
def takeTurn (t : Turn) (s : State) : Result :=
  match t with
  | .command c => runCommand c s
  | .engine => engineStep s
  | .tick => .next (tick s)
  | .arrive b => .next (arrive b s)
  | .reset cfg => .next (resetBlock cfg s)

/-- The next turn of the total order of all agents' steps (R62; log 1). With no turn scheduled no agent moves and nothing
changes. -/
def nextTurn (s : State) : Result :=
  match s.schedule with
  | [] => .next s
  | t :: rest => takeTurn t { s with schedule := rest }

/-- The bare table word, as the next command (log 6). -/
def scheduleWord (nbits w : Nat) (s : State) : State :=
  comeNext [.command (tableCommand nbits w)] s

end Sys2Proof.Machine
end

