-- ==== Sys2Proof/Machine/Step.lean ====
section
/-! DEFINITION. One step of the machine, and the placing of an opcode-table word where the next step takes its instruction. -/

namespace Sys2Proof.Machine

/-- One step: the next turn of the schedule (R62). -/
def step (s : State) : Host.Outcome State Fault Refusal := nextTurn s

/-- `s` with that word's instruction as its next turn; a program comes to run by being scheduled from outside (log 1). -/
def State.withFetchWord (s : State) (nbits w : Nat) : State := scheduleWord nbits w s

end Sys2Proof.Machine
end

