-- ==== Sys2Proof/Safety.lean ====
section
/-! DEFINITION. The terms in which claims about runs are stated: sequences of turns, the states a run can reach, the clean
runs of U19, and the invariant behind 10_state.md R39. -/

namespace Sys2Proof.Machine

/-- The turns of a list, one after another, stopping at the first that does not lead to a next state (R62). -/
def runTurns : List Turn → State → Result
  | [], s => .next s
  | t :: rest, s => andThen (takeTurn t s) (runTurns rest)

/-- `n` steps of the machine, stopping at the first that does not lead to a next state. -/
def runSteps : Nat → State → Result
  | 0, s => .next s
  | n + 1, s => andThen (step s) (runSteps n)

/-- `n` turns of the engine. -/
def engineTurns (n : Nat) : List Turn := List.replicate n .engine

/-- `n` ticks of the timer. -/
def tickTurns (n : Nat) : List Turn := List.replicate n .tick

/-- The states reached from some power-on by some turns and some steps of the schedule. Nothing is assumed of the
platform's configuration. -/
inductive Reachable : State → Prop where
  | powerOn (cfg : Cfg) (pending : List Byte) (schedule : List Turn) :
      Reachable (State.powerOn cfg pending false schedule)
  | turn (t : Turn) (s s' : State) : Reachable s → takeTurn t s = .next s' → Reachable s'
  | scheduled (s s' : State) : Reachable s → step s = .next s' → Reachable s'

/-- No command has been refused yet: "A property is claimed only for runs with the flag clear" (93_implementation_defined.md
U19). -/
abbrev Clean (s : State) : Prop := s.refused = false

/-- The three header tests hold of the accumulated bytes (R133). -/
def HeaderPassed (s : State) : Prop :=
  5 ≤ s.rxLen ∧ rxByte s 0 = s.reqSlave ∧ maskedFunction (rxByte s 1) = s.reqFc ∧ exceptionBit (rxByte s 1) = false

/-- An invariant of every step. It is stronger than R39's list, which it implies: between two steps the accumulator of a
receiving phase is never full, it is empty throughout `Sending`, and the registers a later step indexes with are in range. -/
structure Inv (s : State) : Prop where
  headerLen : s.phase = .awaitingHeader → s.rxLen < 5
  bodyLen : s.phase = .awaitingBody → ∃ n, s.expected = some n ∧ s.rxLen < n
  bodyHeader : s.phase = .awaitingBody → HeaderPassed s
  expectedRange : ∀ n, s.expected = some n → 5 ≤ n ∧ n ≤ rxCap ∧ s.rxLen ≤ n
  expectedIff : s.expected ≠ none ↔ s.phase = .awaitingBody ∨ (s.phase = .done ∧ HeaderPassed s)
  rxLenCap : s.rxLen ≤ rxCap
  bankLenCap : s.bankLen ≤ bankCap
  statusIff : s.status ≠ none ↔ s.phase = .done
  bankValid : 0 < s.bankLen → s.phase = .done ∧ s.status = some .success ∧ readCode s.reqFc = true
  requestLegal : busy s = true → listedCode s.reqFc = true ∧ legalSlave s.reqSlave = true
  sendingLen : s.phase = .sending → s.rxLen = 0
  frameLen : s.phase = .sending → 8 ≤ s.txf.length
  frameCap : s.txf.length ≤ txCap
  txStart : s.phase = .sending → s.sendStep = .drain ∨ s.sendStep = .preHook → s.txIdx = 0
  txInFrame : s.phase = .sending → s.sendStep = .tx → s.txIdx < s.txf.length
  txIdxCap : s.txIdx ≤ s.txf.length
  drainBound : s.drainCount ≤ s.cfg.drainMax

/-- The seven invariants of R39, as the spec lists them. -/
structure RuleR39 (s : State) : Prop where
  i1 : s.phase = .awaitingHeader → s.rxLen ≤ 5
  i2 : s.phase = .awaitingBody → ∃ n, s.expected = some n ∧ s.rxLen ≤ n ∧ n ≤ 260
  i3 : s.rxLen ≤ 260
  i4 : s.bankLen ≤ 128
  i5 : s.status ≠ none ↔ s.phase = .done
  i6 : 0 < s.bankLen → s.phase = .done ∧ s.status = some .success ∧ readCode s.reqFc = true
  i7 : s.expected ≠ none ↔ s.phase = .awaitingBody ∨ (s.phase = .done ∧ HeaderPassed s)

/-- The instruction asks for the transaction EXEC(slave, fc, start, qty, extra): EXEC itself, or the request of its function
code (R120, 43_function_codes.md R150 to R159). -/
def AsksFor (i : Instr) (slave fc : Byte) (start qty : Reg) (extra : List Byte) : Prop :=
  i = .exec slave fc start qty extra ∨
  (fc = 0x01#8 ∧ i = .readCoils slave start qty extra) ∨
  (fc = 0x02#8 ∧ i = .readDiscreteInputs slave start qty extra) ∨
  (fc = 0x03#8 ∧ i = .readHoldingRegisters slave start qty extra) ∨
  (fc = 0x04#8 ∧ i = .readInputRegisters slave start qty extra) ∨
  (fc = 0x05#8 ∧ i = .writeSingleCoil slave start qty extra) ∨
  (fc = 0x06#8 ∧ i = .writeSingleRegister slave start qty extra) ∨
  (fc = 0x0F#8 ∧ i = .writeMultipleCoils slave start qty extra) ∨
  (fc = 0x10#8 ∧ i = .writeMultipleRegisters slave start qty extra) ∨
  (fc = 0x16#8 ∧ i = .maskWriteRegister slave start qty extra) ∨
  (fc = 0x17#8 ∧ i = .readWriteMultipleRegisters slave start qty extra)

/-- `fc ∈ FC_SET`, code by code (R5, R79). -/
def InFcSet (fc : Byte) : Prop :=
  fc ∈ [0x01#8, 0x02#8, 0x03#8, 0x04#8, 0x05#8, 0x06#8, 0x0F#8, 0x10#8, 0x16#8, 0x17#8]

/-- A bit-oriented read code (R79). -/
def IsBitRead (fc : Byte) : Prop := fc = 0x01#8 ∨ fc = 0x02#8

/-- A word-oriented read code (R79). -/
def IsWordRead (fc : Byte) : Prop := fc = 0x03#8 ∨ fc = 0x04#8 ∨ fc = 0x17#8

/-- A single or multiple write code, whose response has 8 bytes (R75, R79). -/
def IsPlainWrite (fc : Byte) : Prop := fc = 0x05#8 ∨ fc = 0x06#8 ∨ fc = 0x0F#8 ∨ fc = 0x10#8

/-- The mask write code, whose response has 10 bytes (R76, R79). -/
def IsMaskWrite (fc : Byte) : Prop := fc = 0x16#8

/-- `slave ∈ 1 .. 247` (R89). -/
def InSlaveRange (slave : Byte) : Prop := 1 ≤ slave.toNat ∧ slave.toNat ≤ 247

/-- The bytes of a request before its CRC, field by field (R72). -/
def wireBody (slave fc : Byte) (start qty : Reg) (extra : List Byte) : List Byte :=
  slave :: fc :: start.extractLsb' 8 8 :: start.extractLsb' 0 8 :: qty.extractLsb' 8 8 :: qty.extractLsb' 0 8 :: extra

/-- Bytes followed by the CRC of them all, low byte first (R53, R72). -/
def withWireCrc (body : List Byte) : List Byte :=
  body ++ [(crc16 body).extractLsb' 0 8, (crc16 body).extractLsb' 8 8]

/-- The descriptor byte of R191 to R198: the type's low four bits, and the order in bits 5:4. -/
def specEnc (t : NumType) (order : Order) : Byte :=
  let low : Byte :=
    match t with
    | .u16 => 0x00#8
    | .s16 => 0x04#8
    | .u32 => 0x01#8
    | .s32 => 0x05#8
    | .f32 => 0x09#8
    | .u64 => 0x02#8
    | .s64 => 0x06#8
    | .f64 => 0x0A#8
  let code : Byte :=
    match order with
    | .be => 0x00#8
    | .le => 0x01#8
    | .beSwapped => 0x02#8
    | .leSwapped => 0x03#8
  low ||| (code <<< 4)

/-- The instruction decodes a type in an order: DECODE with that descriptor, or the descriptor's own row. -/
def DecodesAs (i : Instr) (t : NumType) (start : Nat) (order : Order) : Prop :=
  i = .decode start (specEnc t order) ∨
  (t = .u16 ∧ i = .decodeU16 start order) ∨
  (t = .s16 ∧ i = .decodeS16 start order) ∨
  (t = .u32 ∧ i = .decodeU32 start order) ∨
  (t = .s32 ∧ i = .decodeS32 start order) ∨
  (t = .f32 ∧ i = .decodeF32 start order) ∨
  (t = .u64 ∧ i = .decodeU64 start order) ∨
  (t = .s64 ∧ i = .decodeS64 start order) ∨
  (t = .f64 ∧ i = .decodeF64 start order)

/-- The two bytes of a register exchanged (R8). -/
def bytesSwapped (r : Reg) : Reg := r.extractLsb' 0 8 ++ r.extractLsb' 8 8

/-- The fold of one register (R182 to R185 at n = 1). -/
def fold1 (order : Order) (r0 : Reg) : BitVec 16 :=
  match order with
  | .be => r0
  | .le => r0
  | .beSwapped => bytesSwapped r0
  | .leSwapped => bytesSwapped r0

/-- The fold of two registers (R182 to R185 at n = 2). -/
def fold2 (order : Order) (r0 r1 : Reg) : BitVec 32 :=
  match order with
  | .be => r0 ++ r1
  | .le => r1 ++ r0
  | .beSwapped => bytesSwapped r0 ++ bytesSwapped r1
  | .leSwapped => bytesSwapped r1 ++ bytesSwapped r0

/-- The fold of four registers (R182 to R185 at n = 4). -/
def fold4 (order : Order) (r0 r1 r2 r3 : Reg) : BitVec 64 :=
  match order with
  | .be => r0 ++ r1 ++ r2 ++ r3
  | .le => r3 ++ r2 ++ r1 ++ r0
  | .beSwapped => bytesSwapped r0 ++ bytesSwapped r1 ++ bytesSwapped r2 ++ bytesSwapped r3
  | .leSwapped => bytesSwapped r3 ++ bytesSwapped r2 ++ bytesSwapped r1 ++ bytesSwapped r0

/-- `as_signed_N(v)`: `v - 2^N` when the top bit is set, and `v` otherwise (R9). -/
def asSigned {n : Nat} (v : BitVec n) : Int :=
  if v.getLsbD (n - 1) then (v.toNat : Int) - 2 ^ n else v.toNat

/-- The state of a poll right after it read and appended the byte at the head of `pending` (R131, R132). -/
def afterRead (s : State) (b : Byte) : State :=
  { s with
    pending := s.pending.tail
    events := s.events ++ [.read (some b)]
    rx := s.rx.setIfInBounds s.rxLen b
    rxLen := s.rxLen + 1 }

/-- Two states that differ at most in what a command's answer writes: the reply and the sticky mark. -/
def SameBlock (s t : State) : Prop := t = { s with reply := t.reply, refused := t.refused }

end Sys2Proof.Machine
end

