-- ==== Sys2Proof/Certificates/Slice0/Obligations.lean ====
section
/-! DEFINITION. The statements for the provers, each from the numbered rules of spec/ that its docstring names. -/

open Sys2Proof Sys2Proof.Machine

/-- Decode and encode agree, for every well-formed instruction (30_encoding.md R70, R72, R77, R84, notes/assumptions/2.md). -/
def Obligations.DecodeOfEncodeIsTheInstruction : Prop :=
  ∀ i : Instr, i.wellFormed = true → decode (encode i) = .ok i

/-- Each encoded command has one meaning: encoding what was decoded gives the same bytes (30_encoding.md R70, R72, R77, R84, notes/assumptions/2.md). -/
def Obligations.EncodeOfDecodeIsTheCommand : Prop :=
  ∀ (c : Command) (i : Instr), decode c = .ok i → encode i = c ∧ i.wellFormed = true

/-- Words in the spec's layouts, and in log 2's where the spec leaves operands open, decode to their instructions (30_encoding.md R70, R72, R77, R84, 95_test_vectors.md V3, V6, V9, notes/assumptions/2.md). -/
def Obligations.WordsDecodeAsTheSpecLaysThemOut : Prop :=
  decode ⟨.aduRequest, [0x01#8, 0x03#8, 0x00#8, 0x0E#8, 0x00#8, 0x06#8, 0xA4#8, 0x0B#8]⟩ =
    .ok (.readHoldingRegisters 0x01#8 0x000E#16 0x0006#16 []) ∧
  decode ⟨.aduRequest, [0x01#8, 0x16#8, 0x00#8, 0x04#8, 0x00#8, 0xF2#8, 0x00#8, 0x25#8, 0x67#8, 0xEE#8]⟩ =
    .ok (.maskWriteRegister 0x01#8 0x0004#16 0x00F2#16 [0x00#8, 0x25#8]) ∧
  decode ⟨.aduResponse, [0x01#8, 0x83#8, 0x02#8, 0xC0#8, 0xF1#8]⟩ =
    .ok (.exceptionResponse 0x01#8 0x03#7 0x02#8 0xC0#8 0xF1#8) ∧
  decode ⟨.enc, [0x39#8, 0x00#8]⟩ = .ok (.decodeF32 0 .leSwapped) ∧
  decode ⟨.cmd, [0x04#8]⟩ = .ok .result ∧
  decode ⟨.cmd, [0x07#8]⟩ = .ok .reservedOp7

/-- A step is the next scheduled turn, a command's runs the decoded instruction; logs 1, 8, 9, 13, 17 name the model's choices in it (00_scope.md R4, R13, 20_memory.md R62, 10_state.md R38, 70_reset_and_hazards.md R220, R221, notes/assumptions/1.md, notes/assumptions/8.md, notes/assumptions/9.md, notes/assumptions/13.md, notes/assumptions/17.md). -/
def Obligations.StepTakesTheScheduledTurn : Prop :=
  (∀ (s : State) (c : Command) (i : Instr) (rest : List Turn), s.schedule = .command c :: rest → decode c = .ok i →
    step s = Sys2Proof.Machine.exec i { s with schedule := rest }) ∧
  (∀ (s : State) (c : Command) (why : DecodeError) (rest : List Turn), s.schedule = .command c :: rest →
    decode c = .error why → step s = .refused (.undecodable why)) ∧
  (∀ (s : State) (rest : List Turn), s.schedule = .engine :: rest → step s = engineStep { s with schedule := rest }) ∧
  (∀ (s : State) (rest : List Turn), s.schedule = .tick :: rest →
    step s = .next { s with schedule := rest, timer := s.timer + 1 }) ∧
  (∀ (s : State) (b : Byte) (rest : List Turn), s.schedule = .arrive b :: rest →
    step s = .next { s with schedule := rest, pending := s.pending ++ [b] }) ∧
  (∀ (s : State) (cfg : Cfg) (rest : List Turn), s.schedule = .reset cfg :: rest →
    step s = .next (State.powerOn cfg s.pending s.refused rest)) ∧
  (∀ s : State, s.schedule = [] → step s = .next s)

/-- CRC16 answers the byte-at-a-time CRC from 0xFFFF and changes nothing else (40_crc.md R100, R101, 20_memory.md R61). -/
def Obligations.Crc16AnswersTheModbusCrc : Prop :=
  (∀ (s : State) (data : List Byte), Sys2Proof.Machine.exec (.crc16 data) s = .next { s with reply := .crc (crc16 data) }) ∧
  crc16 [] = 0xFFFF#16 ∧
  (∀ (data : List Byte) (b : Byte), crc16 (data ++ [b]) = crcUpdate (crc16 data) b) ∧
  (∀ (c : Reg) (b : Byte), crcUpdate c b = crcRound^[8] (c ^^^ b.setWidth 16)) ∧
  (∀ c : Reg, crcRound c = if c.getLsbD 0 then (c >>> 1) ^^^ 0xA001#16 else c >>> 1) ∧
  crc16 [0x31#8, 0x32#8, 0x33#8, 0x34#8, 0x35#8, 0x36#8, 0x37#8, 0x38#8, 0x39#8] = 0x4B37#16

/-- CRC_CHECK answers whether a frame ends in its CRC, low byte first, and changes nothing else (40_crc.md R102, 20_memory.md R61). -/
def Obligations.CrcCheckAnswersWhetherTheLastTwoBytesAreTheCrc : Prop :=
  (∀ (s : State) (body : List Byte) (lo hi : Byte), Sys2Proof.Machine.exec (.crcCheck (body ++ [lo, hi])) s =
    .next { s with reply := .verdict (lo == (crc16 body).extractLsb' 0 8 && hi == (crc16 body).extractLsb' 8 8) }) ∧
  (∀ (s : State) (frame : List Byte), frame.length < 2 →
    Sys2Proof.Machine.exec (.crcCheck frame) s = .next { s with reply := .verdict false })

/-- BUILD lays the request out big-endian with the CRC low byte first, for any slave and code, or overflows (R53, R72, R113). -/
def Obligations.BuildAnswersTheFrameOrOverflows : Prop :=
  (∀ (s : State) (slave fc : Byte) (start qty : Reg) (extra : List Byte), extra.length ≤ 248 →
    Sys2Proof.Machine.exec (.build slave fc start qty extra) s =
      .next { s with reply := .frame (withWireCrc (wireBody slave fc start qty extra)) } ∧
    (withWireCrc (wireBody slave fc start qty extra)).length = 8 + extra.length ∧ 8 + extra.length ≤ 256) ∧
  (∀ (s : State) (slave fc : Byte) (start qty : Reg) (extra : List Byte), 248 < extra.length →
    Sys2Proof.Machine.exec (.build slave fc start qty extra) s = .next { s with reply := .error .buildOverflow })

/-- Whatever bytes are followed by their CRC pass the check, so every built frame does (40_crc.md R104, 41_frame_builder.md R115). -/
def Obligations.BuiltFramesPassTheCrcCheck : Prop :=
  (∀ body : List Byte, crcCheck (withWireCrc body) = true) ∧
  (∀ (slave fc : Byte) (start qty : Reg) (extra f : List Byte), buildFrame slave fc start qty extra = some f →
    crcCheck f = true)

/-- Flipping any one bit of a frame that passes the check makes it fail (40_crc.md R104, 41_frame_builder.md R115). -/
def Obligations.FlippingOneBitFailsTheCrcCheck : Prop :=
  ∀ (frame : List Byte) (k j : Nat) (b : Byte), crcCheck frame = true → frame[k]? = some b → j < 8 →
    crcCheck (frame.set k (b ^^^ (0x01#8 <<< j))) = false

/-- A frame of two bytes or more passes the check exactly when its whole CRC is zero (40_crc.md R103). -/
def Obligations.CrcResidueOfACheckedFrameIsZero : Prop :=
  ∀ frame : List Byte, 2 ≤ frame.length → (crcCheck frame = true ↔ crc16 frame = 0x0000#16)

/-- EXEC, and the request of each of the ten function codes, starts a transaction (42_transaction.md R120 to R123, 43_function_codes.md R150 to R159, 10_state.md R37, 90_conflicts.md C4, notes/assumptions/3.md, notes/assumptions/21.md). -/
def Obligations.RequestStartsATransaction : Prop :=
  ∀ (s : State) (i : Instr) (slave fc : Byte) (start qty : Reg) (extra : List Byte),
    AsksFor i slave fc start qty extra → s.phase = .idle ∨ s.phase = .done → InFcSet fc → InSlaveRange slave →
    extra.length ≤ 248 →
    Sys2Proof.Machine.exec i s = .next { s with
      reqSlave := slave
      reqFc := fc
      rxLen := 0
      expected := none
      bankLen := 0
      status := none
      timer := 0
      drainCount := 0
      txIdx := 0
      txf := withWireCrc (wireBody slave fc start qty extra)
      phase := .sending
      sendStep := .drain
      reply := .started }

/-- A request of more than 256 bytes ends at once in BuildOverflow and touches no transport (42_transaction.md R122, R123, 43_function_codes.md R150 to R159, 41_frame_builder.md R111, 60_exceptions.md R203, 90_conflicts.md C4, notes/assumptions/3.md, notes/assumptions/20.md, notes/assumptions/21.md). -/
def Obligations.OversizedRequestEndsInBuildOverflow : Prop :=
  ∀ (s : State) (i : Instr) (slave fc : Byte) (start qty : Reg) (extra : List Byte),
    AsksFor i slave fc start qty extra → s.phase = .idle ∨ s.phase = .done → InFcSet fc → InSlaveRange slave →
    248 < extra.length →
    Sys2Proof.Machine.exec i s = .next { s with
      reqSlave := slave
      reqFc := fc
      rxLen := 0
      expected := none
      bankLen := 0
      status := some .buildOverflow
      timer := 0
      drainCount := 0
      txIdx := 0
      phase := .done
      reply := .started }

/-- A request is refused while busy, for an unlisted code or an illegal slave, and nothing of the block changes (42_transaction.md R121, 43_function_codes.md R150 to R159, 60_exceptions.md R204, 93_implementation_defined.md U19, notes/assumptions/3.md, notes/assumptions/7.md). -/
def Obligations.RefusedRequestChangesNothing : Prop :=
  (∀ (s : State) (i : Instr) (slave fc : Byte) (start qty : Reg) (extra : List Byte), AsksFor i slave fc start qty extra →
    s.phase = .sending ∨ s.phase = .awaitingHeader ∨ s.phase = .awaitingBody →
    Sys2Proof.Machine.exec i s = .next { s with refused := true, reply := .refused .busy }) ∧
  (∀ (s : State) (slave fc : Byte) (start qty : Reg) (extra : List Byte), s.phase = .idle ∨ s.phase = .done →
    ¬ InFcSet fc →
    Sys2Proof.Machine.exec (.exec slave fc start qty extra) s =
      .next { s with refused := true, reply := .refused .functionCode }) ∧
  (∀ (s : State) (i : Instr) (slave fc : Byte) (start qty : Reg) (extra : List Byte), AsksFor i slave fc start qty extra →
    s.phase = .idle ∨ s.phase = .done → InFcSet fc → ¬ InSlaveRange slave →
    Sys2Proof.Machine.exec i s = .next { s with refused := true, reply := .refused .slaveAddress })

/-- The reserved selector and the 16-bit float are refused in every state, which is all the spec has them do (30_encoding.md R71, R88, 45_numeric_decode.md R190, 60_exceptions.md R204, 93_implementation_defined.md U5, U6, U19, notes/assumptions/7.md). -/
def Obligations.ReservedCommandsAreRefusedAlways : Prop :=
  (∀ s : State, Sys2Proof.Machine.exec .reservedOp7 s =
    .next { s with refused := true, reply := .refused .reservedSelector }) ∧
  (∀ (s : State) (start : Nat) (order : Order), s.phase = .idle ∨ s.phase = .done →
    Sys2Proof.Machine.exec (.decodeF16Reserved start order) s =
      .next { s with refused := true, reply := .refused .reservedDescriptor }) ∧
  (∀ (s : State) (start : Nat) (order : Order),
    s.phase = .sending ∨ s.phase = .awaitingHeader ∨ s.phase = .awaitingBody →
    Sys2Proof.Machine.exec (.decodeF16Reserved start order) s =
      .next { s with refused := true, reply := .refused .busy })

/-- RESULT, BANK_READ and every decode are refused while busy, RESULT at Idle, and DECODE with a reserved descriptor (10_state.md R35, 42_transaction.md R144, 44_register_bank.md R175, 45_numeric_decode.md R180, 45_numeric_decode.md R190 to R198, 30_encoding.md R88, 60_exceptions.md R204, 93_implementation_defined.md U8, U19, notes/assumptions/5.md, notes/assumptions/7.md). -/
def Obligations.ReadersAreRefusedWhileBusy : Prop :=
  (∀ s : State, s.phase = .sending ∨ s.phase = .awaitingHeader ∨ s.phase = .awaitingBody →
    Sys2Proof.Machine.exec .result s = .next { s with refused := true, reply := .refused .busy } ∧
    (∀ i : Nat, Sys2Proof.Machine.exec (.bankRead i) s = .next { s with refused := true, reply := .refused .busy }) ∧
    (∀ (start : Nat) (enc : Byte),
      Sys2Proof.Machine.exec (.decode start enc) s = .next { s with refused := true, reply := .refused .busy }) ∧
    (∀ (i : Instr) (t : NumType) (start : Nat) (order : Order), DecodesAs i t start order →
      Sys2Proof.Machine.exec i s = .next { s with refused := true, reply := .refused .busy })) ∧
  (∀ s : State, s.phase = .idle →
    Sys2Proof.Machine.exec .result s = .next { s with refused := true, reply := .refused .noResult }) ∧
  (∀ (s : State) (start : Nat) (enc : Byte), s.phase = .idle ∨ s.phase = .done →
    enc.extractLsb' 6 2 ≠ 0#2 ∨ enc.extractLsb' 0 2 = 3#2 ∨ enc.extractLsb' 2 2 = 3#2 ∨ enc &&& 0x0F#8 = 0x08#8 →
    Sys2Proof.Machine.exec (.decode start enc) s = .next { s with refused := true, reply := .refused .reservedDescriptor })

/-- RESULT answers the status, its result code and bank_len, and changes nothing else (42_transaction.md R144, 30_encoding.md R83, 70_reset_and_hazards.md R229). -/
def Obligations.ResultReportsStatusCodeAndBankLength : Prop :=
  (∀ (s : State) (st : Status), s.phase = .done → s.status = some st →
    Sys2Proof.Machine.exec .result s = .next { s with reply := .result st (statusCode st) s.bankLen }) ∧
  statusCode .success = 0x00#8 ∧
  (∀ c : Byte, statusCode (.modbusException c) = c) ∧
  statusCode .invalidSlaveId = 0xE0#8 ∧
  statusCode .invalidFunction = 0xE1#8 ∧
  statusCode .responseTimeout = 0xE2#8 ∧
  statusCode .invalidCrc = 0xE3#8 ∧
  statusCode .buildOverflow = Config.buildOverflowCode

/-- BANK_READ answers the register below bank_len, and DecodeOutOfRange at or past it (44_register_bank.md R175, 20_memory.md R51, 60_exceptions.md R202). -/
def Obligations.BankReadAnswersTheRegisterOrOutOfRange : Prop :=
  (∀ (s : State) (i : Nat) (h : i < bankCap), s.phase = .idle ∨ s.phase = .done → i < s.bankLen →
    Sys2Proof.Machine.exec (.bankRead i) s = .next { s with reply := .register s.bank[i] }) ∧
  (∀ (s : State) (i : Nat), s.phase = .idle ∨ s.phase = .done → s.bankLen ≤ i →
    Sys2Proof.Machine.exec (.bankRead i) s = .next { s with reply := .error .decodeOutOfRange })

/-- The unsigned decodes answer the folded registers as a natural, or DecodeOutOfRange (R186, R191, R193, R196). -/
def Obligations.UnsignedDecodesAnswerTheFoldedPattern : Prop :=
  (∀ (s : State) (i : Instr) (start : Nat) (order : Order), DecodesAs i .u16 start order →
    s.phase = .idle ∨ s.phase = .done → s.bankLen ≤ bankCap → start < s.bankLen →
    Sys2Proof.Machine.exec i s =
      .next { s with reply := .number (.unsigned (fold1 order (bankReg s start)).toNat) } ∧
    (fold1 order (bankReg s start)).toNat < 2 ^ 16) ∧
  (∀ (s : State) (i : Instr) (start : Nat) (order : Order), DecodesAs i .u32 start order →
    s.phase = .idle ∨ s.phase = .done → s.bankLen ≤ bankCap → start + 2 ≤ s.bankLen →
    Sys2Proof.Machine.exec i s =
      .next { s with reply := .number (.unsigned (fold2 order (bankReg s start) (bankReg s (start + 1))).toNat) } ∧
    (fold2 order (bankReg s start) (bankReg s (start + 1))).toNat < 2 ^ 32) ∧
  (∀ (s : State) (i : Instr) (start : Nat) (order : Order), DecodesAs i .u64 start order →
    s.phase = .idle ∨ s.phase = .done → s.bankLen ≤ bankCap → start + 4 ≤ s.bankLen →
    Sys2Proof.Machine.exec i s =
      .next { s with reply := .number (.unsigned (fold4 order (bankReg s start) (bankReg s (start + 1))
        (bankReg s (start + 2)) (bankReg s (start + 3))).toNat) } ∧
    (fold4 order (bankReg s start) (bankReg s (start + 1)) (bankReg s (start + 2)) (bankReg s (start + 3))).toNat < 2 ^ 64) ∧
  (∀ (s : State) (i : Instr) (t : NumType) (n start : Nat) (order : Order),
    (t = .u16 ∧ n = 1) ∨ (t = .u32 ∧ n = 2) ∨ (t = .u64 ∧ n = 4) → DecodesAs i t start order →
    s.phase = .idle ∨ s.phase = .done → s.bankLen < start + n →
    Sys2Proof.Machine.exec i s = .next { s with reply := .error .decodeOutOfRange })

/-- The signed decodes answer the folded registers in two's complement, or DecodeOutOfRange (45_numeric_decode.md R187, R192, R194, R197, 00_scope.md R9, 92_eei_decisions.md D18). -/
def Obligations.SignedDecodesAnswerTheTwosComplementValue : Prop :=
  (∀ (s : State) (i : Instr) (start : Nat) (order : Order), DecodesAs i .s16 start order →
    s.phase = .idle ∨ s.phase = .done → s.bankLen ≤ bankCap → start < s.bankLen →
    Sys2Proof.Machine.exec i s =
      .next { s with reply := .number (.signed (asSigned (fold1 order (bankReg s start)))) }) ∧
  (∀ (s : State) (i : Instr) (start : Nat) (order : Order), DecodesAs i .s32 start order →
    s.phase = .idle ∨ s.phase = .done → s.bankLen ≤ bankCap → start + 2 ≤ s.bankLen →
    Sys2Proof.Machine.exec i s =
      .next { s with reply := .number (.signed (asSigned (fold2 order (bankReg s start) (bankReg s (start + 1))))) }) ∧
  (∀ (s : State) (i : Instr) (start : Nat) (order : Order), DecodesAs i .s64 start order →
    s.phase = .idle ∨ s.phase = .done → s.bankLen ≤ bankCap → start + 4 ≤ s.bankLen →
    Sys2Proof.Machine.exec i s =
      .next { s with reply := .number (.signed (asSigned (fold4 order (bankReg s start) (bankReg s (start + 1))
        (bankReg s (start + 2)) (bankReg s (start + 3))))) }) ∧
  (∀ (s : State) (i : Instr) (t : NumType) (n start : Nat) (order : Order),
    (t = .s16 ∧ n = 1) ∨ (t = .s32 ∧ n = 2) ∨ (t = .s64 ∧ n = 4) → DecodesAs i t start order →
    s.phase = .idle ∨ s.phase = .done → s.bankLen < start + n →
    Sys2Proof.Machine.exec i s = .next { s with reply := .error .decodeOutOfRange })

/-- The float decodes answer f32_of_bits or f64_of_bits of the folded registers, bit for bit, or DecodeOutOfRange (45_numeric_decode.md R188, R189, R195, R198, 00_scope.md R10, notes/assumptions/18.md). -/
def Obligations.FloatDecodesAnswerTheDatumOfTheFoldedPattern : Prop :=
  (∀ (s : State) (i : Instr) (start : Nat) (order : Order), DecodesAs i .f32 start order →
    s.phase = .idle ∨ s.phase = .done → s.bankLen ≤ bankCap → start + 2 ≤ s.bankLen →
    let v := fold2 order (bankReg s start) (bankReg s (start + 1))
    Sys2Proof.Machine.exec i s = .next { s with reply := .number (.binary32 (f32OfBits v)) } ∧
    f32Bits (f32OfBits v) = v) ∧
  (∀ (s : State) (i : Instr) (start : Nat) (order : Order), DecodesAs i .f64 start order →
    s.phase = .idle ∨ s.phase = .done → s.bankLen ≤ bankCap → start + 4 ≤ s.bankLen →
    let v := fold4 order (bankReg s start) (bankReg s (start + 1)) (bankReg s (start + 2)) (bankReg s (start + 3))
    Sys2Proof.Machine.exec i s = .next { s with reply := .number (.binary64 (f64OfBits v)) } ∧
    f64Bits (f64OfBits v) = v) ∧
  (∀ (s : State) (i : Instr) (t : NumType) (n start : Nat) (order : Order),
    (t = .f32 ∧ n = 2) ∨ (t = .f64 ∧ n = 4) → DecodesAs i t start order →
    s.phase = .idle ∨ s.phase = .done → s.bankLen < start + n →
    Sys2Proof.Machine.exec i s = .next { s with reply := .error .decodeOutOfRange })

/-- The four folds join one, two or four registers in the orders the spec gives (R182, R183, R184, R185). -/
def Obligations.FoldsJoinTheRegistersInTheFourOrders : Prop :=
  (∀ (order : Order) (r0 : Reg), foldRegs 16 order [r0] = fold1 order r0) ∧
  (∀ (order : Order) (r0 r1 : Reg), foldRegs 32 order [r0, r1] = fold2 order r0 r1) ∧
  (∀ (order : Order) (r0 r1 r2 r3 : Reg), foldRegs 64 order [r0, r1, r2, r3] = fold4 order r0 r1 r2 r3) ∧
  (∀ r0 : Reg, foldRegs 16 .le [r0] = foldRegs 16 .be [r0] ∧ foldRegs 16 .leSwapped [r0] = foldRegs 16 .beSwapped [r0]) ∧
  foldRegs 32 .be [0xAABB#16, 0xCCDD#16] = 0xAABBCCDD#32 ∧
  foldRegs 32 .le [0xAABB#16, 0xCCDD#16] = 0xCCDDAABB#32 ∧
  foldRegs 32 .beSwapped [0xAABB#16, 0xCCDD#16] = 0xBBAADDCC#32 ∧
  foldRegs 32 .leSwapped [0xAABB#16, 0xCCDD#16] = 0xDDCCBBAA#32

/-- Reading a pattern as a binary32 or binary64 datum loses no bit (00_scope.md R10, 45_numeric_decode.md R188, R189, notes/assumptions/18.md). -/
def Obligations.FloatReinterpretationKeepsEveryBit : Prop :=
  (∀ v : BitVec 32, f32Bits (f32OfBits v) = v) ∧
  (∀ v : BitVec 64, f64Bits (f64OfBits v) = v) ∧
  (∀ v w : BitVec 32, f32OfBits v = f32OfBits w → v = w) ∧
  (∀ v w : BitVec 64, f64OfBits v = f64OfBits w → v = w)

/-- The answer of a decode depends only on the phase, bank_len and the registers it folds (45_numeric_decode.md R199, 10_state.md R31). -/
def Obligations.DecodeDependsOnlyOnItsRegisters : Prop :=
  ∀ (s t : State) (i : Instr) (ty : NumType) (start : Nat) (order : Order), DecodesAs i ty start order →
    s.phase = .idle ∨ s.phase = .done → t.phase = .idle ∨ t.phase = .done →
    s.bankLen = t.bankLen → s.bankLen ≤ bankCap →
    (∀ k, k < typeRegs ty → bankReg s (start + k) = bankReg t (start + k)) →
    ∃ r, Sys2Proof.Machine.exec i s = .next { s with reply := r } ∧ Sys2Proof.Machine.exec i t = .next { t with reply := r }

/-- No command but EXEC, the requests and an exception response changes any state of the block (20_memory.md R61, 60_exceptions.md R202, 44_register_bank.md R175, 45_numeric_decode.md R199). -/
def Obligations.ReadingCommandsChangeNothingOfTheBlock : Prop :=
  ∀ (s t : State) (i : Instr),
    (∃ data, i = .crc16 data) ∨ (∃ frame, i = .crcCheck frame) ∨
    (∃ slave fc start qty extra, i = .build slave fc start qty extra) ∨ i = .result ∨ (∃ k, i = .bankRead k) ∨
    (∃ start enc, i = .decode start enc) ∨ i = .reservedOp7 ∨ (∃ start order, i = .decodeF16Reserved start order) ∨
    (∃ ty start order, DecodesAs i ty start order) →
    Sys2Proof.Machine.exec i s = .next t → SameBlock s t

/-- The drain step discards one pending byte, or goes on to the pre-hook at its bound or on an empty queue (42_transaction.md R125, 10_state.md R25, 20_memory.md R59). -/
def Obligations.DrainDiscardsOneByteOrGoesOn : Prop :=
  (∀ s : State, s.phase = .sending → s.sendStep = .drain → s.drainCount = s.cfg.drainMax →
    engineStep s = .next { s with sendStep := .preHook }) ∧
  (∀ s : State, s.phase = .sending → s.sendStep = .drain → s.drainCount ≠ s.cfg.drainMax → s.pending = [] →
    engineStep s = .next { s with events := s.events ++ [.read none], sendStep := .preHook }) ∧
  (∀ (s : State) (b : Byte) (rest : List Byte), s.phase = .sending → s.sendStep = .drain →
    s.drainCount ≠ s.cfg.drainMax → s.pending = b :: rest →
    engineStep s = .next { s with
      pending := rest
      events := s.events ++ [.read (some b)]
      drainCount := s.drainCount + 1 })

/-- The hook and flush steps make their one call, if configured, and go on; the post-hook step clears the timer (R126, R128, R129). -/
def Obligations.HookAndFlushStepsCallOutAndGoOn : Prop :=
  (∀ s : State, s.phase = .sending → s.sendStep = .preHook →
    engineStep s = .next { s with
      events := s.events ++ (if s.cfg.hasPreHook then [.pre] else [])
      sendStep := .tx }) ∧
  (∀ s : State, s.phase = .sending → s.sendStep = .flush →
    engineStep s = .next { s with events := s.events ++ [.flush], sendStep := .postHook }) ∧
  (∀ s : State, s.phase = .sending → s.sendStep = .postHook →
    engineStep s = .next { s with
      events := s.events ++ (if s.cfg.hasPostHook then [.post] else [])
      sendStep := .settle
      timer := 0 })

/-- The transmit steps write the frame in index order, one byte a step, in exactly as many steps as it has bytes (R127). -/
def Obligations.TxWritesTheFrameInIndexOrder : Prop :=
  (∀ (s : State) (b : Byte), s.phase = .sending → s.sendStep = .tx → s.txf[s.txIdx]? = some b →
    engineStep s = .next { s with
      sent := s.sent ++ [b]
      events := s.events ++ [.write b]
      txIdx := s.txIdx + 1
      sendStep := if s.txIdx + 1 = s.txf.length then .flush else .tx }) ∧
  (∀ s : State, s.phase = .sending → s.sendStep = .tx → s.txIdx < s.txf.length →
    runTurns (engineTurns (s.txf.length - s.txIdx)) s = .next { s with
      sent := s.sent ++ s.txf.drop s.txIdx
      events := s.events ++ (s.txf.drop s.txIdx).map Event.write
      txIdx := s.txf.length
      sendStep := .flush }) ∧
  (∀ s : State, Inv s → s.phase = .sending → 8 ≤ s.txf.length ∧ s.txf.length ≤ 256)

/-- The settle step holds for settle_ticks ticks, then starts AwaitingHeader with the timer at 0 (42_transaction.md R130, 10_state.md R28, 92_eei_decisions.md D8, notes/assumptions/20.md). -/
def Obligations.SettleHoldsThenStartsTheResponsePhase : Prop :=
  (∀ s : State, s.phase = .sending → s.sendStep = .settle → s.timer < s.cfg.settleTicks → engineStep s = .next s) ∧
  (∀ s : State, s.phase = .sending → s.sendStep = .settle → s.cfg.settleTicks ≤ s.timer →
    engineStep s = .next { s with phase := .awaitingHeader, timer := 0 })

/-- A poll times out at the deadline whatever is pending; before it, it reads nothing or takes one byte (42_transaction.md R131, R132, 60_exceptions.md R207, 92_eei_decisions.md D7). -/
def Obligations.PollTestsTheDeadlineFirst : Prop :=
  (∀ s : State, receiving s = true → s.cfg.deadlineTicks ≤ s.timer →
    engineStep s = .next { s with status := some .responseTimeout, phase := .done }) ∧
  (∀ s : State, receiving s = true → s.timer < s.cfg.deadlineTicks → s.pending = [] →
    engineStep s = .next { s with events := s.events ++ [.read none] }) ∧
  (∀ (s : State) (b : Byte) (rest : List Byte), s.timer < s.cfg.deadlineTicks → s.pending = b :: rest →
    (s.phase = .awaitingHeader ∧ s.rxLen < 4) ∨
      (s.phase = .awaitingBody ∧ s.rxLen < rxCap ∧ s.expected ≠ some (s.rxLen + 1)) →
    engineStep s = .next (afterRead s b))

/-- The poll that reads the fifth byte tests slave, function and exception bit in this order, then sets the length (R78, R81, R133, R134). -/
def Obligations.HeaderCheckAtTheFifthByte : Prop :=
  ∀ (s : State) (b : Byte) (rest : List Byte), s.phase = .awaitingHeader → s.rxLen = 4 →
    s.timer < s.cfg.deadlineTicks → s.pending = b :: rest →
    (rxByte s 0 ≠ s.reqSlave →
      engineStep s = .next { afterRead s b with status := some .invalidSlaveId, phase := .done }) ∧
    (rxByte s 0 = s.reqSlave → rxByte s 1 &&& 0x7F#8 ≠ s.reqFc →
      engineStep s = .next { afterRead s b with status := some .invalidFunction, phase := .done }) ∧
    (rxByte s 0 = s.reqSlave → rxByte s 1 &&& 0x7F#8 = s.reqFc → (rxByte s 1).getLsbD 7 = true →
      engineStep s = .next { afterRead s b with status := some (.modbusException (rxByte s 2)), phase := .done }) ∧
    (rxByte s 0 = s.reqSlave → rxByte s 1 = s.reqFc → (rxByte s 1).getLsbD 7 = false →
      (IsBitRead s.reqFc ∨ IsWordRead s.reqFc → rxByte s 2 ≠ 0#8 →
        engineStep s = .next { afterRead s b with
          expected := some (5 + (rxByte s 2).toNat)
          phase := .awaitingBody }) ∧
      (IsPlainWrite s.reqFc →
        engineStep s = .next { afterRead s b with expected := some 8, phase := .awaitingBody }) ∧
      (IsMaskWrite s.reqFc →
        engineStep s = .next { afterRead s b with expected := some 10, phase := .awaitingBody }) ∧
      (IsBitRead s.reqFc ∨ IsWordRead s.reqFc → rxByte s 2 = 0#8 →
        engineStep s = .next
          (if withWireCrc [rxByte s 0, rxByte s 1, rxByte s 2] =
              [rxByte s 0, rxByte s 1, rxByte s 2, rxByte s 3, b] then
            { afterRead s b with expected := some 5, phase := .done, status := some .success, bankLen := 0 }
          else { afterRead s b with expected := some 5, phase := .done, status := some .invalidCrc })))

/-- The poll that reads the last byte checks the CRC; a bad one ends in InvalidCRC, a good write in Success (R135, R136). -/
def Obligations.CompletingPollChecksTheCrc : Prop :=
  ∀ (s : State) (b : Byte) (rest : List Byte), s.phase = .awaitingBody → s.rxLen < rxCap →
    s.expected = some (s.rxLen + 1) → s.timer < s.cfg.deadlineTicks → s.pending = b :: rest →
    ((∀ body, rxBytes s ++ [b] ≠ withWireCrc body) →
      engineStep s = .next { afterRead s b with status := some .invalidCrc, phase := .done }) ∧
    ((∃ body, rxBytes s ++ [b] = withWireCrc body) →
      (IsPlainWrite s.reqFc ∨ IsMaskWrite s.reqFc →
        engineStep s = .next { afterRead s b with status := some .success, phase := .done }) ∧
      (IsBitRead s.reqFc ∨ IsWordRead s.reqFc →
        engineStep s = .next { afterRead s b with
          status := some .success
          phase := .done
          bank := (disassemble (afterRead s b)).bank
          bankLen := (disassemble (afterRead s b)).bankLen }))

/-- A bit-oriented read packs each pair of payload bytes low byte first, a trailing odd byte with a zero high byte (R171). -/
def Obligations.BitReadFillsTheBankLowByteFirst : Prop :=
  (∀ s : State, IsBitRead s.reqFc →
    let m := (rxByte s 2).toNat
    let t := disassemble s
    t = { s with bank := t.bank, bankLen := (m + 1) / 2 } ∧
    (∀ i, 2 * i + 1 < m → bankReg t i = rxByte s (3 + (2 * i + 1)) ++ rxByte s (3 + 2 * i)) ∧
    (∀ i, 2 * i + 1 = m → bankReg t i = 0x00#8 ++ rxByte s (3 + 2 * i)) ∧
    (∀ i, (m + 1) / 2 ≤ i → bankReg t i = bankReg s i)) ∧
  disasmBits [0x05#8, 0xFF#8, 0x01#8] = [0xFF05#16, 0x0001#16]

/-- A word-oriented read packs each pair high byte first and drops a trailing odd byte; a write writes nothing (44_register_bank.md R170, R172, R173, 92_eei_decisions.md D13, D14). -/
def Obligations.WordReadFillsTheBankHighByteFirst : Prop :=
  (∀ s : State, IsWordRead s.reqFc →
    let m := (rxByte s 2).toNat
    let t := disassemble s
    t = { s with bank := t.bank, bankLen := m / 2 } ∧
    (∀ i, 2 * i + 1 < m → bankReg t i = rxByte s (3 + 2 * i) ++ rxByte s (3 + (2 * i + 1))) ∧
    (∀ i, m / 2 ≤ i → bankReg t i = bankReg s i)) ∧
  (∀ s : State, IsPlainWrite s.reqFc ∨ IsMaskWrite s.reqFc → disassemble s = s)

/-- At Idle and Done the engine has no step: its turn changes nothing (42_transaction.md R137, 60_exceptions.md R208, R209, notes/assumptions/14.md). -/
def Obligations.EngineHasNoStepAtIdleOrDone : Prop :=
  ∀ (s : State) (n : Nat), s.phase = .idle ∨ s.phase = .done → runTurns (engineTurns n) s = .next s

/-- An exception response comes in byte by byte and ends the awaiting transaction at its fifth, whatever its CRC; else it waits (30_encoding.md R77, R81, R82, 42_transaction.md R131, R133, R139, 00_scope.md R4, 10_state.md R21, 70_reset_and_hazards.md R228, notes/assumptions/4.md). -/
def Obligations.ExceptionResponseEndsTheTransaction : Prop :=
  (∀ (s : State) (slave : Byte) (fc : BitVec 7) (code crcLo crcHi : Byte),
    Sys2Proof.Machine.exec (.exceptionResponse slave fc code crcLo crcHi) s = .next { s with
      pending := s.pending ++ [slave]
      schedule := [.arrive (1#1 ++ fc), .arrive code, .arrive crcLo, .arrive crcHi] ++
        (if receiving s then engineTurns 5 else []) ++ s.schedule }) ∧
  (∀ (s u : State) (slave : Byte) (fc : BitVec 7) (code crcLo crcHi : Byte), s.phase = .awaitingHeader → s.rxLen = 0 →
    s.pending = [] → s.timer < s.cfg.deadlineTicks →
    Sys2Proof.Machine.exec (.exceptionResponse slave fc code crcLo crcHi) s = .next u →
    runSteps 9 u = .next { s with
      rx := ((((s.rx.setIfInBounds 0 slave).setIfInBounds 1 (1#1 ++ fc)).setIfInBounds 2 code).setIfInBounds 3
        crcLo).setIfInBounds 4 crcHi
      rxLen := 5
      events := s.events ++ [slave, 1#1 ++ fc, code, crcLo, crcHi].map fun b => Event.read (some b)
      status := some
        (if slave ≠ s.reqSlave then .invalidSlaveId
         else if (0#1 ++ fc : Byte) ≠ s.reqFc then .invalidFunction
         else .modbusException code)
      phase := .done }) ∧
  (∀ (s u : State) (slave : Byte) (fc : BitVec 7) (code crcLo crcHi : Byte),
    s.phase = .idle ∨ s.phase = .done ∨ s.phase = .sending →
    Sys2Proof.Machine.exec (.exceptionResponse slave fc code crcLo crcHi) s = .next u →
    runSteps 4 u = .next { s with pending := s.pending ++ [slave, 1#1 ++ fc, code, crcLo, crcHi] }) ∧
  (∀ (s u : State) (slave : Byte) (fc : BitVec 7) (code crcLo crcHi : Byte), receiving s = true →
    Sys2Proof.Machine.exec (.exceptionResponse slave fc code crcLo crcHi) s = .next u →
    runSteps 9 u = runTurns ([slave, 1#1 ++ fc, code, crcLo, crcHi].map Turn.arrive ++ engineTurns 5) s)

/-- Only the drain and the polls read the transport, at most one byte a step, and an empty queue changes nothing (R59). -/
def Obligations.TryReadIsCalledOnlyInDrainAndPoll : Prop :=
  (∀ (s : State) (b : Byte) (rest : List Byte), s.pending = b :: rest →
    readAnswer s = some b ∧ tryRead s = { s with pending := rest, events := s.events ++ [.read (some b)] }) ∧
  (∀ s : State, s.pending = [] → readAnswer s = none ∧ tryRead s = { s with events := s.events ++ [.read none] }) ∧
  (∀ s t : State, engineStep s = .next t →
    t.pending = s.pending ∨
    (((s.phase = .sending ∧ s.sendStep = .drain) ∨ receiving s = true) ∧ ∃ b, s.pending = b :: t.pending)) ∧
  (∀ s t : State, engineStep s = .next t → ¬ (s.phase = .sending ∧ s.sendStep = .drain) → receiving s = false →
    t.pending = s.pending ∧ ∀ r, Event.read r ∈ t.events → Event.read r ∈ s.events)

/-- An engine step logs at most one outside call, and bytes are sent exactly by the logged writes (60_exceptions.md R217, 10_state.md R33, R34, 20_memory.md R60). -/
def Obligations.EngineStepMakesAtMostOneCall : Prop :=
  ∀ s t : State, engineStep s = .next t →
    (t.events = s.events ∧ t.sent = s.sent) ∨
    (∃ b, t.events = s.events ++ [.write b] ∧ t.sent = s.sent ++ [b]) ∨
    (∃ e, t.events = s.events ++ [e] ∧ (∀ b, e ≠ .write b) ∧ t.sent = s.sent)

/-- Only the step that finishes a successful read writes the bank (R30). -/
def Obligations.OnlyASuccessfulReadWritesTheBank : Prop :=
  ∀ (u : Turn) (s t : State), (∀ cfg, u ≠ .reset cfg) → takeTurn u s = .next t → t.bank ≠ s.bank →
    u = .engine ∧ receiving s = true ∧ t.phase = .done ∧ t.status = some .success ∧ (IsBitRead t.reqFc ∨ IsWordRead t.reqFc)

/-- While a transaction is in flight, nothing short of a reset changes its request, its frame or the configuration (20_memory.md R65, 10_state.md R23, R32, 42_transaction.md R121). -/
def Obligations.RequestInFlightCannotBeChanged : Prop :=
  (∀ (u : Turn) (s t : State), (∀ cfg, u ≠ .reset cfg) → busy s = true → takeTurn u s = .next t →
    t.reqSlave = s.reqSlave ∧ t.reqFc = s.reqFc ∧ t.txf = s.txf) ∧
  (∀ (u : Turn) (s t : State), (∀ cfg, u ≠ .reset cfg) → takeTurn u s = .next t → t.cfg = s.cfg)

/-- Short of a reset, only the engine while busy, or a request at Idle or Done, changes the phase or the status (10_state.md R21, R29, 42_transaction.md R120, R123, R137 to R139, 43_function_codes.md R150 to R159, 60_exceptions.md R206, R208, notes/assumptions/3.md). -/
def Obligations.PhaseAndStatusChangeOnlyByTheEngineOrARequest : Prop :=
  (∀ (u : Turn) (s t : State), (∀ cfg, u ≠ .reset cfg) → takeTurn u s = .next t →
    t.phase ≠ s.phase ∨ t.status ≠ s.status →
    (u = .engine ∧ busy s = true) ∨
    (∃ c i slave fc start qty extra, u = .command c ∧ decode c = .ok i ∧ AsksFor i slave fc start qty extra ∧
      (s.phase = .idle ∨ s.phase = .done))) ∧
  (∀ (u : Turn) (s t : State), (∀ cfg, u ≠ .reset cfg) → takeTurn u s = .next t → s.phase ≠ .done → t.phase = .done →
    (u = .engine ∧ receiving s = true) ∨
    (∃ c i slave fc start qty extra, u = .command c ∧ decode c = .ok i ∧ AsksFor i slave fc start qty extra ∧
      s.phase = .idle ∧ 248 < extra.length ∧ t.status = some .buildOverflow)) ∧
  (∀ s : State, takeTurn .tick s = .next { s with timer := s.timer + 1 }) ∧
  (∀ (s : State) (b : Byte), takeTurn (.arrive b) s = .next { s with pending := s.pending ++ [b] })

/-- The refused mark, once set, stays set, across a reset too by the model's choice (log 13), and only a refusal sets it (60_exceptions.md R204, 93_implementation_defined.md U19, notes/assumptions/7.md, notes/assumptions/13.md). -/
def Obligations.RefusedMarkIsSticky : Prop :=
  ∀ (u : Turn) (s t : State), takeTurn u s = .next t →
    (s.refused = true → t.refused = true) ∧
    (s.refused = false → t.refused = true → (∃ c, u = .command c) ∧ ∃ why, t.reply = .refused why)

/-- A reset in any state gives the spec's power-on values, keeps pending and calls no hook (10_state.md R38, 70_reset_and_hazards.md R220, R221, notes/assumptions/13.md). -/
def Obligations.ResetGivesTheSpecsValuesAndKeepsPending : Prop :=
  (∀ (s : State) (cfg : Cfg), ∃ t, takeTurn (.reset cfg) s = .next t ∧ t.phase = .idle ∧ t.txf = [] ∧ t.txIdx = 0 ∧
    t.drainCount = 0 ∧ t.rxLen = 0 ∧ t.expected = none ∧ t.timer = 0 ∧ t.status = none ∧ t.bankLen = 0 ∧ t.cfg = cfg ∧
    t.pending = s.pending ∧ t.sent = [] ∧ t.events = []) ∧
  State.reset.phase = .idle ∧ State.reset.txf = [] ∧ State.reset.txIdx = 0 ∧ State.reset.drainCount = 0 ∧
  State.reset.rxLen = 0 ∧ State.reset.expected = none ∧ State.reset.timer = 0 ∧ State.reset.status = none ∧
  State.reset.bankLen = 0 ∧ State.reset.sent = [] ∧ State.reset.events = [] ∧ State.reset.cfg.Legal

/-- The state after power-on meets the step invariant (10_state.md R38, R39, 70_reset_and_hazards.md R220). -/
def Obligations.PowerOnStatesMeetTheStepInvariant : Prop :=
  Inv State.reset ∧
  ∀ (cfg : Cfg) (pending : List Byte) (refused : Bool) (schedule : List Turn),
    Inv (State.powerOn cfg pending refused schedule)

/-- Every step keeps the invariant, from every state that meets it (10_state.md R24, R25, R39, 42_transaction.md R131 to R136). -/
def Obligations.EveryStepKeepsTheStepInvariant : Prop :=
  ∀ s t : State, Inv s → step s = .next t → Inv t

/-- The seven invariants I1 to I7 of the spec hold in every reachable state (10_state.md R39, 44_register_bank.md R174, 60_exceptions.md R210). -/
def Obligations.RuleR39HoldsInEveryReachableState : Prop :=
  ∀ s : State, Reachable s → RuleR39 s ∧
    (s.phase = .done → s.status ≠ some .success ∨ IsPlainWrite s.reqFc ∨ IsMaskWrite s.reqFc → s.bankLen = 0)

/-- From a state of the invariant a step never faults, and is refused only for bytes that decode to no command (60_exceptions.md R205, 10_state.md R39, notes/assumptions/16.md, notes/assumptions/17.md). -/
def Obligations.StepStopsOnlyOnBytesThatAreNoCommand : Prop :=
  ∀ s : State, Inv s →
    (∃ t, step s = .next t) ∨
    ∃ c rest why, s.schedule = .command c :: rest ∧ decode c = .error why ∧ step s = .refused (.undecodable why)

/-- From a fresh transaction the engine drains, calls the pre-hook, sends the frame, flushes and calls the post-hook (42_transaction.md R125 to R130, R140, 70_reset_and_hazards.md R226). -/
def Obligations.TransmissionFollowsTheProtocolOrder : Prop :=
  ∀ s : State, s.phase = .sending → s.sendStep = .drain → s.drainCount = 0 → s.txIdx = 0 → s.txf ≠ [] →
    let d := min s.pending.length s.cfg.drainMax
    runTurns (engineTurns (d + 1 + 1 + s.txf.length + 1 + 1)) s = .next { s with
      sendStep := .settle
      timer := 0
      drainCount := d
      txIdx := s.txf.length
      pending := s.pending.drop d
      sent := s.sent ++ s.txf
      events := s.events ++ (s.pending.take d).map (fun b => Event.read (some b)) ++
        (if s.pending.length < s.cfg.drainMax then [.read none] else []) ++
        (if s.cfg.hasPreHook then [.pre] else []) ++ s.txf.map Event.write ++ [.flush] ++
        (if s.cfg.hasPostHook then [.post] else []) }

/-- A read response with a good CRC, all pending, ends in Success with its payload in the bank (30_encoding.md R74, R78, 42_transaction.md R131 to R136, R143, 44_register_bank.md R170 to R172, 43_function_codes.md R150 to R153, R159). -/
def Obligations.GoodReadResponseEndsInSuccess : Prop :=
  ∀ (s : State) (p rest : List Byte), s.phase = .awaitingHeader → s.rxLen = 0 → s.timer < s.cfg.deadlineTicks →
    p.length ≤ 255 → IsBitRead s.reqFc ∨ IsWordRead s.reqFc →
    s.pending = withWireCrc (s.reqSlave :: s.reqFc :: BitVec.ofNat 8 p.length :: p) ++ rest →
    ∃ t, runTurns (engineTurns (5 + p.length)) s = .next t ∧
      t.phase = .done ∧ t.status = some .success ∧ t.expected = some (5 + p.length) ∧ t.rxLen = 5 + p.length ∧
      t.pending = rest ∧ t.sent = s.sent ∧ t.timer = s.timer ∧ t.cfg = s.cfg ∧
      t.events = s.events ++ (s.pending.take (5 + p.length)).map (fun b => Event.read (some b)) ∧
      (IsBitRead s.reqFc →
        t.bankLen = (p.length + 1) / 2 ∧
        (∀ (i : Nat) (lo hi : Byte), p[2 * i]? = some lo → p[2 * i + 1]? = some hi → bankReg t i = hi ++ lo) ∧
        (∀ (i : Nat) (lo : Byte), 2 * i + 1 = p.length → p[2 * i]? = some lo → bankReg t i = 0x00#8 ++ lo)) ∧
      (IsWordRead s.reqFc →
        t.bankLen = p.length / 2 ∧
        (∀ (i : Nat) (hi lo : Byte), p[2 * i]? = some hi → p[2 * i + 1]? = some lo → bankReg t i = hi ++ lo))

/-- A write response of 8 bytes, or 10 for the mask write, with a good CRC ends in Success and leaves the bank (30_encoding.md R75, R76, R78, 42_transaction.md R131 to R136, 43_function_codes.md R154 to R158, R160, 44_register_bank.md R173). -/
def Obligations.GoodWriteResponseEndsInSuccess : Prop :=
  ∀ (s : State) (data rest : List Byte), s.phase = .awaitingHeader → s.rxLen = 0 → s.timer < s.cfg.deadlineTicks →
    (IsPlainWrite s.reqFc ∧ data.length = 4) ∨ (IsMaskWrite s.reqFc ∧ data.length = 6) →
    s.pending = withWireCrc (s.reqSlave :: s.reqFc :: data) ++ rest →
    ∃ t, runTurns (engineTurns (4 + data.length)) s = .next t ∧
      t.phase = .done ∧ t.status = some .success ∧ t.expected = some (4 + data.length) ∧ t.rxLen = 4 + data.length ∧
      t.pending = rest ∧ t.sent = s.sent ∧ t.bank = s.bank ∧ t.bankLen = s.bankLen ∧ t.timer = s.timer ∧ t.cfg = s.cfg

/-- With no byte pending or arriving, a transaction times out at the first poll at the deadline and no sooner (42_transaction.md R131, R142, 70_reset_and_hazards.md R233). -/
def Obligations.NoReplyEndsInTimeoutAtTheDeadline : Prop :=
  ∀ (s : State) (turns : List Turn), receiving s = true → s.pending = [] →
    (∀ u ∈ turns, u = .engine ∨ u = .tick) →
    (s.timer + turns.count .tick < s.cfg.deadlineTicks →
      ∃ t, runTurns turns s = .next t ∧ t.phase = s.phase ∧ t.status = s.status ∧ t.rxLen = s.rxLen ∧ t.rx = s.rx ∧
        t.timer = s.timer + turns.count .tick) ∧
    (s.cfg.deadlineTicks ≤ s.timer + turns.count .tick →
      ∃ t, runTurns (turns ++ [.engine]) s = .next t ∧ t.phase = .done ∧ t.status = some .responseTimeout ∧
        t.rxLen = s.rxLen ∧ t.bankLen = s.bankLen)

/-- Every transaction reaches Done: enough engine turns, the settle ticks, a turn, the deadline ticks, a turn (42_transaction.md R141, 60_exceptions.md R205, 20_memory.md R62). -/
def Obligations.EveryTransactionEndsWithinItsBound : Prop :=
  ∀ s : State, Inv s → busy s = true →
    ∃ t, runTurns (engineTurns (s.cfg.drainMax + 260) ++ tickTurns s.cfg.settleTicks ++ [.engine] ++
        tickTurns s.cfg.deadlineTicks ++ [.engine]) s = .next t ∧
      t.phase = .done ∧ t.status ≠ none

/-- Every turn is one agent's step: the caller's, the engine's, the transport's and the timer's each touch only what is theirs (00_scope.md R4, R13, 10_state.md R37, 20_memory.md R61, R62, 42_transaction.md R138, R139, 60_exceptions.md R206, R213, notes/assumptions/4.md). -/
def Obligations.EachStepIsOneAgentsAndTouchesOnlyItsOwn : Prop :=
  ∀ (u : Turn) (s t : State), takeTurn u s = .next t →
    (u.agent = .caller → t.rx = s.rx ∧ t.bank = s.bank ∧ t.cfg = s.cfg ∧ t.pending = s.pending ∧ t.sent = s.sent ∧
      t.events = s.events ∧ t.schedule = s.schedule) ∧
    (u.agent = .engine → t.reqSlave = s.reqSlave ∧ t.reqFc = s.reqFc ∧ t.txf = s.txf ∧ t.cfg = s.cfg ∧
      t.refused = s.refused ∧ t.reply = s.reply ∧ t.schedule = s.schedule) ∧
    (u.agent = .transport → ∃ b, t = { s with pending := s.pending ++ [b], schedule := t.schedule }) ∧
    (u.agent = .timer → t = { s with timer := s.timer + 1 })

/-- The datum of a binary32 or binary64 pattern is the one its sign, exponent and fraction fields give (00_scope.md R10, 45_numeric_decode.md R188, R189, 93_implementation_defined.md G9, notes/assumptions/18.md). -/
def Obligations.FloatDatumsFollowTheIeeeFields : Prop :=
  (∀ v : BitVec 32,
    let negative := v.getLsbD 31
    let e := (v.extractLsb' 23 8).toNat
    let f := (v.extractLsb' 0 23).toNat
    (e = 255 → f = 0 → f32OfBits v = .infinity negative) ∧
    (e = 255 → f ≠ 0 → f32OfBits v = .nan negative f) ∧
    (e = 0 → f32OfBits v = .finite negative f (-149)) ∧
    (0 < e → e < 255 → f32OfBits v = .finite negative (2 ^ 23 + f) ((e : Int) - 150))) ∧
  (∀ v : BitVec 64,
    let negative := v.getLsbD 63
    let e := (v.extractLsb' 52 11).toNat
    let f := (v.extractLsb' 0 52).toNat
    (e = 2047 → f = 0 → f64OfBits v = .infinity negative) ∧
    (e = 2047 → f ≠ 0 → f64OfBits v = .nan negative f) ∧
    (e = 0 → f64OfBits v = .finite negative f (-1074)) ∧
    (0 < e → e < 2047 → f64OfBits v = .finite negative (2 ^ 52 + f) ((e : Int) - 1075)))
end

