-- ==== Sys2Proof/Laws/State.lean ====
section
/-! SUPPORT. One lemma per field and named update, so that no proof unfolds a record update. -/

namespace Sys2Proof.Machine

section
variable (s : State)

/-! `answer` -/

@[simp] theorem answer_phase (r : Reply) : (answer r s).phase = s.phase := rfl
@[simp] theorem answer_sendStep (r : Reply) : (answer r s).sendStep = s.sendStep := rfl
@[simp] theorem answer_reqSlave (r : Reply) : (answer r s).reqSlave = s.reqSlave := rfl
@[simp] theorem answer_reqFc (r : Reply) : (answer r s).reqFc = s.reqFc := rfl
@[simp] theorem answer_txf (r : Reply) : (answer r s).txf = s.txf := rfl
@[simp] theorem answer_txIdx (r : Reply) : (answer r s).txIdx = s.txIdx := rfl
@[simp] theorem answer_drainCount (r : Reply) : (answer r s).drainCount = s.drainCount := rfl
@[simp] theorem answer_rx (r : Reply) : (answer r s).rx = s.rx := rfl
@[simp] theorem answer_rxLen (r : Reply) : (answer r s).rxLen = s.rxLen := rfl
@[simp] theorem answer_expected (r : Reply) : (answer r s).expected = s.expected := rfl
@[simp] theorem answer_timer (r : Reply) : (answer r s).timer = s.timer := rfl
@[simp] theorem answer_status (r : Reply) : (answer r s).status = s.status := rfl
@[simp] theorem answer_bank (r : Reply) : (answer r s).bank = s.bank := rfl
@[simp] theorem answer_bankLen (r : Reply) : (answer r s).bankLen = s.bankLen := rfl
@[simp] theorem answer_cfg (r : Reply) : (answer r s).cfg = s.cfg := rfl
@[simp] theorem answer_pending (r : Reply) : (answer r s).pending = s.pending := rfl
@[simp] theorem answer_sent (r : Reply) : (answer r s).sent = s.sent := rfl
@[simp] theorem answer_events (r : Reply) : (answer r s).events = s.events := rfl
@[simp] theorem answer_refused (r : Reply) : (answer r s).refused = s.refused := rfl
@[simp] theorem answer_reply (r : Reply) : (answer r s).reply = r := rfl
@[simp] theorem answer_schedule (r : Reply) : (answer r s).schedule = s.schedule := rfl
@[simp] theorem answer_busy (r : Reply) : busy (answer r s) = busy s := rfl
@[simp] theorem answer_receiving (r : Reply) : receiving (answer r s) = receiving s := rfl
@[simp] theorem answer_rxByte (r : Reply) (i : Nat) : rxByte (answer r s) i = rxByte s i := rfl
@[simp] theorem answer_rxBytes (r : Reply) : rxBytes (answer r s) = rxBytes s := rfl
@[simp] theorem answer_bankReg (r : Reply) (i : Nat) : bankReg (answer r s) i = bankReg s i := rfl

/-! `refuse` -/

@[simp] theorem refuse_phase (c : RefusedCase) : (refuse c s).phase = s.phase := rfl
@[simp] theorem refuse_sendStep (c : RefusedCase) : (refuse c s).sendStep = s.sendStep := rfl
@[simp] theorem refuse_reqSlave (c : RefusedCase) : (refuse c s).reqSlave = s.reqSlave := rfl
@[simp] theorem refuse_reqFc (c : RefusedCase) : (refuse c s).reqFc = s.reqFc := rfl
@[simp] theorem refuse_txf (c : RefusedCase) : (refuse c s).txf = s.txf := rfl
@[simp] theorem refuse_txIdx (c : RefusedCase) : (refuse c s).txIdx = s.txIdx := rfl
@[simp] theorem refuse_drainCount (c : RefusedCase) : (refuse c s).drainCount = s.drainCount := rfl
@[simp] theorem refuse_rx (c : RefusedCase) : (refuse c s).rx = s.rx := rfl
@[simp] theorem refuse_rxLen (c : RefusedCase) : (refuse c s).rxLen = s.rxLen := rfl
@[simp] theorem refuse_expected (c : RefusedCase) : (refuse c s).expected = s.expected := rfl
@[simp] theorem refuse_timer (c : RefusedCase) : (refuse c s).timer = s.timer := rfl
@[simp] theorem refuse_status (c : RefusedCase) : (refuse c s).status = s.status := rfl
@[simp] theorem refuse_bank (c : RefusedCase) : (refuse c s).bank = s.bank := rfl
@[simp] theorem refuse_bankLen (c : RefusedCase) : (refuse c s).bankLen = s.bankLen := rfl
@[simp] theorem refuse_cfg (c : RefusedCase) : (refuse c s).cfg = s.cfg := rfl
@[simp] theorem refuse_pending (c : RefusedCase) : (refuse c s).pending = s.pending := rfl
@[simp] theorem refuse_sent (c : RefusedCase) : (refuse c s).sent = s.sent := rfl
@[simp] theorem refuse_events (c : RefusedCase) : (refuse c s).events = s.events := rfl
@[simp] theorem refuse_refused (c : RefusedCase) : (refuse c s).refused = true := rfl
@[simp] theorem refuse_reply (c : RefusedCase) : (refuse c s).reply = .refused c := rfl
@[simp] theorem refuse_schedule (c : RefusedCase) : (refuse c s).schedule = s.schedule := rfl
@[simp] theorem refuse_busy (c : RefusedCase) : busy (refuse c s) = busy s := rfl
@[simp] theorem refuse_receiving (c : RefusedCase) : receiving (refuse c s) = receiving s := rfl
@[simp] theorem refuse_rxByte (c : RefusedCase) (i : Nat) : rxByte (refuse c s) i = rxByte s i := rfl
@[simp] theorem refuse_rxBytes (c : RefusedCase) : rxBytes (refuse c s) = rxBytes s := rfl
@[simp] theorem refuse_bankReg (c : RefusedCase) (i : Nat) : bankReg (refuse c s) i = bankReg s i := rfl

/-! `finish` -/

@[simp] theorem finish_phase (st : Status) : (finish st s).phase = .done := rfl
@[simp] theorem finish_sendStep (st : Status) : (finish st s).sendStep = s.sendStep := rfl
@[simp] theorem finish_reqSlave (st : Status) : (finish st s).reqSlave = s.reqSlave := rfl
@[simp] theorem finish_reqFc (st : Status) : (finish st s).reqFc = s.reqFc := rfl
@[simp] theorem finish_txf (st : Status) : (finish st s).txf = s.txf := rfl
@[simp] theorem finish_txIdx (st : Status) : (finish st s).txIdx = s.txIdx := rfl
@[simp] theorem finish_drainCount (st : Status) : (finish st s).drainCount = s.drainCount := rfl
@[simp] theorem finish_rx (st : Status) : (finish st s).rx = s.rx := rfl
@[simp] theorem finish_rxLen (st : Status) : (finish st s).rxLen = s.rxLen := rfl
@[simp] theorem finish_expected (st : Status) : (finish st s).expected = s.expected := rfl
@[simp] theorem finish_timer (st : Status) : (finish st s).timer = s.timer := rfl
@[simp] theorem finish_status (st : Status) : (finish st s).status = some st := rfl
@[simp] theorem finish_bank (st : Status) : (finish st s).bank = s.bank := rfl
@[simp] theorem finish_bankLen (st : Status) : (finish st s).bankLen = s.bankLen := rfl
@[simp] theorem finish_cfg (st : Status) : (finish st s).cfg = s.cfg := rfl
@[simp] theorem finish_pending (st : Status) : (finish st s).pending = s.pending := rfl
@[simp] theorem finish_sent (st : Status) : (finish st s).sent = s.sent := rfl
@[simp] theorem finish_events (st : Status) : (finish st s).events = s.events := rfl
@[simp] theorem finish_refused (st : Status) : (finish st s).refused = s.refused := rfl
@[simp] theorem finish_reply (st : Status) : (finish st s).reply = s.reply := rfl
@[simp] theorem finish_schedule (st : Status) : (finish st s).schedule = s.schedule := rfl
@[simp] theorem finish_rxByte (st : Status) (i : Nat) : rxByte (finish st s) i = rxByte s i := rfl
@[simp] theorem finish_rxBytes (st : Status) : rxBytes (finish st s) = rxBytes s := rfl
@[simp] theorem finish_bankReg (st : Status) (i : Nat) : bankReg (finish st s) i = bankReg s i := rfl

/-! `latchRequest` -/

@[simp] theorem latchRequest_phase (slave fc : Byte) : (latchRequest slave fc s).phase = s.phase := rfl
@[simp] theorem latchRequest_sendStep (slave fc : Byte) : (latchRequest slave fc s).sendStep = s.sendStep := rfl
@[simp] theorem latchRequest_reqSlave (slave fc : Byte) : (latchRequest slave fc s).reqSlave = slave := rfl
@[simp] theorem latchRequest_reqFc (slave fc : Byte) : (latchRequest slave fc s).reqFc = fc := rfl
@[simp] theorem latchRequest_txf (slave fc : Byte) : (latchRequest slave fc s).txf = s.txf := rfl
@[simp] theorem latchRequest_txIdx (slave fc : Byte) : (latchRequest slave fc s).txIdx = 0 := rfl
@[simp] theorem latchRequest_drainCount (slave fc : Byte) : (latchRequest slave fc s).drainCount = 0 := rfl
@[simp] theorem latchRequest_rx (slave fc : Byte) : (latchRequest slave fc s).rx = s.rx := rfl
@[simp] theorem latchRequest_rxLen (slave fc : Byte) : (latchRequest slave fc s).rxLen = 0 := rfl
@[simp] theorem latchRequest_expected (slave fc : Byte) : (latchRequest slave fc s).expected = none := rfl
@[simp] theorem latchRequest_timer (slave fc : Byte) : (latchRequest slave fc s).timer = 0 := rfl
@[simp] theorem latchRequest_status (slave fc : Byte) : (latchRequest slave fc s).status = none := rfl
@[simp] theorem latchRequest_bank (slave fc : Byte) : (latchRequest slave fc s).bank = s.bank := rfl
@[simp] theorem latchRequest_bankLen (slave fc : Byte) : (latchRequest slave fc s).bankLen = 0 := rfl
@[simp] theorem latchRequest_cfg (slave fc : Byte) : (latchRequest slave fc s).cfg = s.cfg := rfl
@[simp] theorem latchRequest_pending (slave fc : Byte) : (latchRequest slave fc s).pending = s.pending := rfl
@[simp] theorem latchRequest_sent (slave fc : Byte) : (latchRequest slave fc s).sent = s.sent := rfl
@[simp] theorem latchRequest_events (slave fc : Byte) : (latchRequest slave fc s).events = s.events := rfl
@[simp] theorem latchRequest_refused (slave fc : Byte) : (latchRequest slave fc s).refused = s.refused := rfl
@[simp] theorem latchRequest_reply (slave fc : Byte) : (latchRequest slave fc s).reply = s.reply := rfl
@[simp] theorem latchRequest_schedule (slave fc : Byte) : (latchRequest slave fc s).schedule = s.schedule := rfl
@[simp] theorem latchRequest_busy (slave fc : Byte) : busy (latchRequest slave fc s) = busy s := rfl
@[simp] theorem latchRequest_receiving (slave fc : Byte) : receiving (latchRequest slave fc s) = receiving s := rfl
@[simp] theorem latchRequest_rxByte (slave fc : Byte) (i : Nat) : rxByte (latchRequest slave fc s) i = rxByte s i := rfl
@[simp] theorem latchRequest_bankReg (slave fc : Byte) (i : Nat) : bankReg (latchRequest slave fc s) i = bankReg s i := rfl

/-! `logEvent` -/

@[simp] theorem logEvent_phase (e : Event) : (logEvent e s).phase = s.phase := rfl
@[simp] theorem logEvent_sendStep (e : Event) : (logEvent e s).sendStep = s.sendStep := rfl
@[simp] theorem logEvent_reqSlave (e : Event) : (logEvent e s).reqSlave = s.reqSlave := rfl
@[simp] theorem logEvent_reqFc (e : Event) : (logEvent e s).reqFc = s.reqFc := rfl
@[simp] theorem logEvent_txf (e : Event) : (logEvent e s).txf = s.txf := rfl
@[simp] theorem logEvent_txIdx (e : Event) : (logEvent e s).txIdx = s.txIdx := rfl
@[simp] theorem logEvent_drainCount (e : Event) : (logEvent e s).drainCount = s.drainCount := rfl
@[simp] theorem logEvent_rx (e : Event) : (logEvent e s).rx = s.rx := rfl
@[simp] theorem logEvent_rxLen (e : Event) : (logEvent e s).rxLen = s.rxLen := rfl
@[simp] theorem logEvent_expected (e : Event) : (logEvent e s).expected = s.expected := rfl
@[simp] theorem logEvent_timer (e : Event) : (logEvent e s).timer = s.timer := rfl
@[simp] theorem logEvent_status (e : Event) : (logEvent e s).status = s.status := rfl
@[simp] theorem logEvent_bank (e : Event) : (logEvent e s).bank = s.bank := rfl
@[simp] theorem logEvent_bankLen (e : Event) : (logEvent e s).bankLen = s.bankLen := rfl
@[simp] theorem logEvent_cfg (e : Event) : (logEvent e s).cfg = s.cfg := rfl
@[simp] theorem logEvent_pending (e : Event) : (logEvent e s).pending = s.pending := rfl
@[simp] theorem logEvent_sent (e : Event) : (logEvent e s).sent = s.sent := rfl
@[simp] theorem logEvent_events (e : Event) : (logEvent e s).events = s.events ++ [e] := rfl
@[simp] theorem logEvent_refused (e : Event) : (logEvent e s).refused = s.refused := rfl
@[simp] theorem logEvent_reply (e : Event) : (logEvent e s).reply = s.reply := rfl
@[simp] theorem logEvent_schedule (e : Event) : (logEvent e s).schedule = s.schedule := rfl
@[simp] theorem logEvent_busy (e : Event) : busy (logEvent e s) = busy s := rfl
@[simp] theorem logEvent_receiving (e : Event) : receiving (logEvent e s) = receiving s := rfl
@[simp] theorem logEvent_rxByte (e : Event) (i : Nat) : rxByte (logEvent e s) i = rxByte s i := rfl
@[simp] theorem logEvent_rxBytes (e : Event) : rxBytes (logEvent e s) = rxBytes s := rfl
@[simp] theorem logEvent_bankReg (e : Event) (i : Nat) : bankReg (logEvent e s) i = bankReg s i := rfl

/-! `writeByte` -/

@[simp] theorem writeByte_phase (b : Byte) : (writeByte b s).phase = s.phase := rfl
@[simp] theorem writeByte_sendStep (b : Byte) : (writeByte b s).sendStep = s.sendStep := rfl
@[simp] theorem writeByte_reqSlave (b : Byte) : (writeByte b s).reqSlave = s.reqSlave := rfl
@[simp] theorem writeByte_reqFc (b : Byte) : (writeByte b s).reqFc = s.reqFc := rfl
@[simp] theorem writeByte_txf (b : Byte) : (writeByte b s).txf = s.txf := rfl
@[simp] theorem writeByte_txIdx (b : Byte) : (writeByte b s).txIdx = s.txIdx := rfl
@[simp] theorem writeByte_drainCount (b : Byte) : (writeByte b s).drainCount = s.drainCount := rfl
@[simp] theorem writeByte_rx (b : Byte) : (writeByte b s).rx = s.rx := rfl
@[simp] theorem writeByte_rxLen (b : Byte) : (writeByte b s).rxLen = s.rxLen := rfl
@[simp] theorem writeByte_expected (b : Byte) : (writeByte b s).expected = s.expected := rfl
@[simp] theorem writeByte_timer (b : Byte) : (writeByte b s).timer = s.timer := rfl
@[simp] theorem writeByte_status (b : Byte) : (writeByte b s).status = s.status := rfl
@[simp] theorem writeByte_bank (b : Byte) : (writeByte b s).bank = s.bank := rfl
@[simp] theorem writeByte_bankLen (b : Byte) : (writeByte b s).bankLen = s.bankLen := rfl
@[simp] theorem writeByte_cfg (b : Byte) : (writeByte b s).cfg = s.cfg := rfl
@[simp] theorem writeByte_pending (b : Byte) : (writeByte b s).pending = s.pending := rfl
@[simp] theorem writeByte_sent (b : Byte) : (writeByte b s).sent = s.sent ++ [b] := rfl
@[simp] theorem writeByte_events (b : Byte) : (writeByte b s).events = s.events ++ [.write b] := rfl
@[simp] theorem writeByte_refused (b : Byte) : (writeByte b s).refused = s.refused := rfl
@[simp] theorem writeByte_reply (b : Byte) : (writeByte b s).reply = s.reply := rfl
@[simp] theorem writeByte_schedule (b : Byte) : (writeByte b s).schedule = s.schedule := rfl
@[simp] theorem writeByte_busy (b : Byte) : busy (writeByte b s) = busy s := rfl
@[simp] theorem writeByte_receiving (b : Byte) : receiving (writeByte b s) = receiving s := rfl
@[simp] theorem writeByte_rxByte (b : Byte) (i : Nat) : rxByte (writeByte b s) i = rxByte s i := rfl
@[simp] theorem writeByte_rxBytes (b : Byte) : rxBytes (writeByte b s) = rxBytes s := rfl
@[simp] theorem writeByte_bankReg (b : Byte) (i : Nat) : bankReg (writeByte b s) i = bankReg s i := rfl

/-! `flushBus` -/

@[simp] theorem flushBus_phase : (flushBus s).phase = s.phase := rfl
@[simp] theorem flushBus_sendStep : (flushBus s).sendStep = s.sendStep := rfl
@[simp] theorem flushBus_reqSlave : (flushBus s).reqSlave = s.reqSlave := rfl
@[simp] theorem flushBus_reqFc : (flushBus s).reqFc = s.reqFc := rfl
@[simp] theorem flushBus_txf : (flushBus s).txf = s.txf := rfl
@[simp] theorem flushBus_txIdx : (flushBus s).txIdx = s.txIdx := rfl
@[simp] theorem flushBus_drainCount : (flushBus s).drainCount = s.drainCount := rfl
@[simp] theorem flushBus_rx : (flushBus s).rx = s.rx := rfl
@[simp] theorem flushBus_rxLen : (flushBus s).rxLen = s.rxLen := rfl
@[simp] theorem flushBus_expected : (flushBus s).expected = s.expected := rfl
@[simp] theorem flushBus_timer : (flushBus s).timer = s.timer := rfl
@[simp] theorem flushBus_status : (flushBus s).status = s.status := rfl
@[simp] theorem flushBus_bank : (flushBus s).bank = s.bank := rfl
@[simp] theorem flushBus_bankLen : (flushBus s).bankLen = s.bankLen := rfl
@[simp] theorem flushBus_cfg : (flushBus s).cfg = s.cfg := rfl
@[simp] theorem flushBus_pending : (flushBus s).pending = s.pending := rfl
@[simp] theorem flushBus_sent : (flushBus s).sent = s.sent := rfl
@[simp] theorem flushBus_events : (flushBus s).events = s.events ++ [.flush] := rfl
@[simp] theorem flushBus_refused : (flushBus s).refused = s.refused := rfl
@[simp] theorem flushBus_reply : (flushBus s).reply = s.reply := rfl
@[simp] theorem flushBus_schedule : (flushBus s).schedule = s.schedule := rfl
@[simp] theorem flushBus_busy : busy (flushBus s) = busy s := rfl
@[simp] theorem flushBus_receiving : receiving (flushBus s) = receiving s := rfl
@[simp] theorem flushBus_rxByte (i : Nat) : rxByte (flushBus s) i = rxByte s i := rfl
@[simp] theorem flushBus_rxBytes : rxBytes (flushBus s) = rxBytes s := rfl
@[simp] theorem flushBus_bankReg (i : Nat) : bankReg (flushBus s) i = bankReg s i := rfl

/-! `tryRead` -/

@[simp] theorem tryRead_phase : (tryRead s).phase = s.phase := rfl
@[simp] theorem tryRead_sendStep : (tryRead s).sendStep = s.sendStep := rfl
@[simp] theorem tryRead_reqSlave : (tryRead s).reqSlave = s.reqSlave := rfl
@[simp] theorem tryRead_reqFc : (tryRead s).reqFc = s.reqFc := rfl
@[simp] theorem tryRead_txf : (tryRead s).txf = s.txf := rfl
@[simp] theorem tryRead_txIdx : (tryRead s).txIdx = s.txIdx := rfl
@[simp] theorem tryRead_drainCount : (tryRead s).drainCount = s.drainCount := rfl
@[simp] theorem tryRead_rx : (tryRead s).rx = s.rx := rfl
@[simp] theorem tryRead_rxLen : (tryRead s).rxLen = s.rxLen := rfl
@[simp] theorem tryRead_expected : (tryRead s).expected = s.expected := rfl
@[simp] theorem tryRead_timer : (tryRead s).timer = s.timer := rfl
@[simp] theorem tryRead_status : (tryRead s).status = s.status := rfl
@[simp] theorem tryRead_bank : (tryRead s).bank = s.bank := rfl
@[simp] theorem tryRead_bankLen : (tryRead s).bankLen = s.bankLen := rfl
@[simp] theorem tryRead_cfg : (tryRead s).cfg = s.cfg := rfl
@[simp] theorem tryRead_pending : (tryRead s).pending = s.pending.tail := rfl
@[simp] theorem tryRead_sent : (tryRead s).sent = s.sent := rfl
@[simp] theorem tryRead_events : (tryRead s).events = s.events ++ [.read s.pending.head?] := rfl
@[simp] theorem tryRead_refused : (tryRead s).refused = s.refused := rfl
@[simp] theorem tryRead_reply : (tryRead s).reply = s.reply := rfl
@[simp] theorem tryRead_schedule : (tryRead s).schedule = s.schedule := rfl
@[simp] theorem tryRead_busy : busy (tryRead s) = busy s := rfl
@[simp] theorem tryRead_receiving : receiving (tryRead s) = receiving s := rfl
@[simp] theorem tryRead_rxByte (i : Nat) : rxByte (tryRead s) i = rxByte s i := rfl
@[simp] theorem tryRead_rxBytes : rxBytes (tryRead s) = rxBytes s := rfl
@[simp] theorem tryRead_bankReg (i : Nat) : bankReg (tryRead s) i = bankReg s i := rfl

/-! `rxAppend` -/

@[simp] theorem rxAppend_phase (b : Byte) : (rxAppend b s).phase = s.phase := rfl
@[simp] theorem rxAppend_sendStep (b : Byte) : (rxAppend b s).sendStep = s.sendStep := rfl
@[simp] theorem rxAppend_reqSlave (b : Byte) : (rxAppend b s).reqSlave = s.reqSlave := rfl
@[simp] theorem rxAppend_reqFc (b : Byte) : (rxAppend b s).reqFc = s.reqFc := rfl
@[simp] theorem rxAppend_txf (b : Byte) : (rxAppend b s).txf = s.txf := rfl
@[simp] theorem rxAppend_txIdx (b : Byte) : (rxAppend b s).txIdx = s.txIdx := rfl
@[simp] theorem rxAppend_drainCount (b : Byte) : (rxAppend b s).drainCount = s.drainCount := rfl
@[simp] theorem rxAppend_rx (b : Byte) : (rxAppend b s).rx = s.rx.setIfInBounds s.rxLen b := rfl
@[simp] theorem rxAppend_rxLen (b : Byte) : (rxAppend b s).rxLen = s.rxLen + 1 := rfl
@[simp] theorem rxAppend_expected (b : Byte) : (rxAppend b s).expected = s.expected := rfl
@[simp] theorem rxAppend_timer (b : Byte) : (rxAppend b s).timer = s.timer := rfl
@[simp] theorem rxAppend_status (b : Byte) : (rxAppend b s).status = s.status := rfl
@[simp] theorem rxAppend_bank (b : Byte) : (rxAppend b s).bank = s.bank := rfl
@[simp] theorem rxAppend_bankLen (b : Byte) : (rxAppend b s).bankLen = s.bankLen := rfl
@[simp] theorem rxAppend_cfg (b : Byte) : (rxAppend b s).cfg = s.cfg := rfl
@[simp] theorem rxAppend_pending (b : Byte) : (rxAppend b s).pending = s.pending := rfl
@[simp] theorem rxAppend_sent (b : Byte) : (rxAppend b s).sent = s.sent := rfl
@[simp] theorem rxAppend_events (b : Byte) : (rxAppend b s).events = s.events := rfl
@[simp] theorem rxAppend_refused (b : Byte) : (rxAppend b s).refused = s.refused := rfl
@[simp] theorem rxAppend_reply (b : Byte) : (rxAppend b s).reply = s.reply := rfl
@[simp] theorem rxAppend_schedule (b : Byte) : (rxAppend b s).schedule = s.schedule := rfl
@[simp] theorem rxAppend_busy (b : Byte) : busy (rxAppend b s) = busy s := rfl
@[simp] theorem rxAppend_receiving (b : Byte) : receiving (rxAppend b s) = receiving s := rfl
@[simp] theorem rxAppend_bankReg (b : Byte) (i : Nat) : bankReg (rxAppend b s) i = bankReg s i := rfl

/-! `fillBank` -/

@[simp] theorem fillBank_phase (regs : List Reg) : (fillBank regs s).phase = s.phase := rfl
@[simp] theorem fillBank_sendStep (regs : List Reg) : (fillBank regs s).sendStep = s.sendStep := rfl
@[simp] theorem fillBank_reqSlave (regs : List Reg) : (fillBank regs s).reqSlave = s.reqSlave := rfl
@[simp] theorem fillBank_reqFc (regs : List Reg) : (fillBank regs s).reqFc = s.reqFc := rfl
@[simp] theorem fillBank_txf (regs : List Reg) : (fillBank regs s).txf = s.txf := rfl
@[simp] theorem fillBank_txIdx (regs : List Reg) : (fillBank regs s).txIdx = s.txIdx := rfl
@[simp] theorem fillBank_drainCount (regs : List Reg) : (fillBank regs s).drainCount = s.drainCount := rfl
@[simp] theorem fillBank_rx (regs : List Reg) : (fillBank regs s).rx = s.rx := rfl
@[simp] theorem fillBank_rxLen (regs : List Reg) : (fillBank regs s).rxLen = s.rxLen := rfl
@[simp] theorem fillBank_expected (regs : List Reg) : (fillBank regs s).expected = s.expected := rfl
@[simp] theorem fillBank_timer (regs : List Reg) : (fillBank regs s).timer = s.timer := rfl
@[simp] theorem fillBank_status (regs : List Reg) : (fillBank regs s).status = s.status := rfl
@[simp] theorem fillBank_bank (regs : List Reg) : (fillBank regs s).bank = setRegs s.bank 0 regs := rfl
@[simp] theorem fillBank_bankLen (regs : List Reg) : (fillBank regs s).bankLen = regs.length := rfl
@[simp] theorem fillBank_cfg (regs : List Reg) : (fillBank regs s).cfg = s.cfg := rfl
@[simp] theorem fillBank_pending (regs : List Reg) : (fillBank regs s).pending = s.pending := rfl
@[simp] theorem fillBank_sent (regs : List Reg) : (fillBank regs s).sent = s.sent := rfl
@[simp] theorem fillBank_events (regs : List Reg) : (fillBank regs s).events = s.events := rfl
@[simp] theorem fillBank_refused (regs : List Reg) : (fillBank regs s).refused = s.refused := rfl
@[simp] theorem fillBank_reply (regs : List Reg) : (fillBank regs s).reply = s.reply := rfl
@[simp] theorem fillBank_schedule (regs : List Reg) : (fillBank regs s).schedule = s.schedule := rfl
@[simp] theorem fillBank_busy (regs : List Reg) : busy (fillBank regs s) = busy s := rfl
@[simp] theorem fillBank_receiving (regs : List Reg) : receiving (fillBank regs s) = receiving s := rfl
@[simp] theorem fillBank_rxByte (regs : List Reg) (i : Nat) : rxByte (fillBank regs s) i = rxByte s i := rfl
@[simp] theorem fillBank_rxBytes (regs : List Reg) : rxBytes (fillBank regs s) = rxBytes s := rfl

/-! `tick` -/

@[simp] theorem tick_phase : (tick s).phase = s.phase := rfl
@[simp] theorem tick_sendStep : (tick s).sendStep = s.sendStep := rfl
@[simp] theorem tick_reqSlave : (tick s).reqSlave = s.reqSlave := rfl
@[simp] theorem tick_reqFc : (tick s).reqFc = s.reqFc := rfl
@[simp] theorem tick_txf : (tick s).txf = s.txf := rfl
@[simp] theorem tick_txIdx : (tick s).txIdx = s.txIdx := rfl
@[simp] theorem tick_drainCount : (tick s).drainCount = s.drainCount := rfl
@[simp] theorem tick_rx : (tick s).rx = s.rx := rfl
@[simp] theorem tick_rxLen : (tick s).rxLen = s.rxLen := rfl
@[simp] theorem tick_expected : (tick s).expected = s.expected := rfl
@[simp] theorem tick_timer : (tick s).timer = s.timer + 1 := rfl
@[simp] theorem tick_status : (tick s).status = s.status := rfl
@[simp] theorem tick_bank : (tick s).bank = s.bank := rfl
@[simp] theorem tick_bankLen : (tick s).bankLen = s.bankLen := rfl
@[simp] theorem tick_cfg : (tick s).cfg = s.cfg := rfl
@[simp] theorem tick_pending : (tick s).pending = s.pending := rfl
@[simp] theorem tick_sent : (tick s).sent = s.sent := rfl
@[simp] theorem tick_events : (tick s).events = s.events := rfl
@[simp] theorem tick_refused : (tick s).refused = s.refused := rfl
@[simp] theorem tick_reply : (tick s).reply = s.reply := rfl
@[simp] theorem tick_schedule : (tick s).schedule = s.schedule := rfl
@[simp] theorem tick_busy : busy (tick s) = busy s := rfl
@[simp] theorem tick_receiving : receiving (tick s) = receiving s := rfl
@[simp] theorem tick_rxByte (i : Nat) : rxByte (tick s) i = rxByte s i := rfl
@[simp] theorem tick_rxBytes : rxBytes (tick s) = rxBytes s := rfl
@[simp] theorem tick_bankReg (i : Nat) : bankReg (tick s) i = bankReg s i := rfl

/-! `arrive` -/

@[simp] theorem arrive_phase (b : Byte) : (arrive b s).phase = s.phase := rfl
@[simp] theorem arrive_sendStep (b : Byte) : (arrive b s).sendStep = s.sendStep := rfl
@[simp] theorem arrive_reqSlave (b : Byte) : (arrive b s).reqSlave = s.reqSlave := rfl
@[simp] theorem arrive_reqFc (b : Byte) : (arrive b s).reqFc = s.reqFc := rfl
@[simp] theorem arrive_txf (b : Byte) : (arrive b s).txf = s.txf := rfl
@[simp] theorem arrive_txIdx (b : Byte) : (arrive b s).txIdx = s.txIdx := rfl
@[simp] theorem arrive_drainCount (b : Byte) : (arrive b s).drainCount = s.drainCount := rfl
@[simp] theorem arrive_rx (b : Byte) : (arrive b s).rx = s.rx := rfl
@[simp] theorem arrive_rxLen (b : Byte) : (arrive b s).rxLen = s.rxLen := rfl
@[simp] theorem arrive_expected (b : Byte) : (arrive b s).expected = s.expected := rfl
@[simp] theorem arrive_timer (b : Byte) : (arrive b s).timer = s.timer := rfl
@[simp] theorem arrive_status (b : Byte) : (arrive b s).status = s.status := rfl
@[simp] theorem arrive_bank (b : Byte) : (arrive b s).bank = s.bank := rfl
@[simp] theorem arrive_bankLen (b : Byte) : (arrive b s).bankLen = s.bankLen := rfl
@[simp] theorem arrive_cfg (b : Byte) : (arrive b s).cfg = s.cfg := rfl
@[simp] theorem arrive_pending (b : Byte) : (arrive b s).pending = s.pending ++ [b] := rfl
@[simp] theorem arrive_sent (b : Byte) : (arrive b s).sent = s.sent := rfl
@[simp] theorem arrive_events (b : Byte) : (arrive b s).events = s.events := rfl
@[simp] theorem arrive_refused (b : Byte) : (arrive b s).refused = s.refused := rfl
@[simp] theorem arrive_reply (b : Byte) : (arrive b s).reply = s.reply := rfl
@[simp] theorem arrive_schedule (b : Byte) : (arrive b s).schedule = s.schedule := rfl
@[simp] theorem arrive_busy (b : Byte) : busy (arrive b s) = busy s := rfl
@[simp] theorem arrive_receiving (b : Byte) : receiving (arrive b s) = receiving s := rfl
@[simp] theorem arrive_rxByte (b : Byte) (i : Nat) : rxByte (arrive b s) i = rxByte s i := rfl
@[simp] theorem arrive_rxBytes (b : Byte) : rxBytes (arrive b s) = rxBytes s := rfl
@[simp] theorem arrive_bankReg (b : Byte) (i : Nat) : bankReg (arrive b s) i = bankReg s i := rfl

/-! `comeNext` -/

@[simp] theorem comeNext_phase (turns : List Turn) : (comeNext turns s).phase = s.phase := rfl
@[simp] theorem comeNext_sendStep (turns : List Turn) : (comeNext turns s).sendStep = s.sendStep := rfl
@[simp] theorem comeNext_reqSlave (turns : List Turn) : (comeNext turns s).reqSlave = s.reqSlave := rfl
@[simp] theorem comeNext_reqFc (turns : List Turn) : (comeNext turns s).reqFc = s.reqFc := rfl
@[simp] theorem comeNext_txf (turns : List Turn) : (comeNext turns s).txf = s.txf := rfl
@[simp] theorem comeNext_txIdx (turns : List Turn) : (comeNext turns s).txIdx = s.txIdx := rfl
@[simp] theorem comeNext_drainCount (turns : List Turn) : (comeNext turns s).drainCount = s.drainCount := rfl
@[simp] theorem comeNext_rx (turns : List Turn) : (comeNext turns s).rx = s.rx := rfl
@[simp] theorem comeNext_rxLen (turns : List Turn) : (comeNext turns s).rxLen = s.rxLen := rfl
@[simp] theorem comeNext_expected (turns : List Turn) : (comeNext turns s).expected = s.expected := rfl
@[simp] theorem comeNext_timer (turns : List Turn) : (comeNext turns s).timer = s.timer := rfl
@[simp] theorem comeNext_status (turns : List Turn) : (comeNext turns s).status = s.status := rfl
@[simp] theorem comeNext_bank (turns : List Turn) : (comeNext turns s).bank = s.bank := rfl
@[simp] theorem comeNext_bankLen (turns : List Turn) : (comeNext turns s).bankLen = s.bankLen := rfl
@[simp] theorem comeNext_cfg (turns : List Turn) : (comeNext turns s).cfg = s.cfg := rfl
@[simp] theorem comeNext_pending (turns : List Turn) : (comeNext turns s).pending = s.pending := rfl
@[simp] theorem comeNext_sent (turns : List Turn) : (comeNext turns s).sent = s.sent := rfl
@[simp] theorem comeNext_events (turns : List Turn) : (comeNext turns s).events = s.events := rfl
@[simp] theorem comeNext_refused (turns : List Turn) : (comeNext turns s).refused = s.refused := rfl
@[simp] theorem comeNext_reply (turns : List Turn) : (comeNext turns s).reply = s.reply := rfl
@[simp] theorem comeNext_schedule (turns : List Turn) : (comeNext turns s).schedule = turns ++ s.schedule := rfl
@[simp] theorem comeNext_busy (turns : List Turn) : busy (comeNext turns s) = busy s := rfl
@[simp] theorem comeNext_receiving (turns : List Turn) : receiving (comeNext turns s) = receiving s := rfl
@[simp] theorem comeNext_rxByte (turns : List Turn) (i : Nat) : rxByte (comeNext turns s) i = rxByte s i := rfl
@[simp] theorem comeNext_rxBytes (turns : List Turn) : rxBytes (comeNext turns s) = rxBytes s := rfl
@[simp] theorem comeNext_bankReg (turns : List Turn) (i : Nat) : bankReg (comeNext turns s) i = bankReg s i := rfl

/-! `callPreHook` -/

@[simp] theorem callPreHook_phase : (callPreHook s).phase = s.phase := by unfold callPreHook; split <;> rfl
@[simp] theorem callPreHook_sendStep : (callPreHook s).sendStep = s.sendStep := by unfold callPreHook; split <;> rfl
@[simp] theorem callPreHook_reqSlave : (callPreHook s).reqSlave = s.reqSlave := by unfold callPreHook; split <;> rfl
@[simp] theorem callPreHook_reqFc : (callPreHook s).reqFc = s.reqFc := by unfold callPreHook; split <;> rfl
@[simp] theorem callPreHook_txf : (callPreHook s).txf = s.txf := by unfold callPreHook; split <;> rfl
@[simp] theorem callPreHook_txIdx : (callPreHook s).txIdx = s.txIdx := by unfold callPreHook; split <;> rfl
@[simp] theorem callPreHook_drainCount : (callPreHook s).drainCount = s.drainCount := by unfold callPreHook; split <;> rfl
@[simp] theorem callPreHook_rx : (callPreHook s).rx = s.rx := by unfold callPreHook; split <;> rfl
@[simp] theorem callPreHook_rxLen : (callPreHook s).rxLen = s.rxLen := by unfold callPreHook; split <;> rfl
@[simp] theorem callPreHook_expected : (callPreHook s).expected = s.expected := by unfold callPreHook; split <;> rfl
@[simp] theorem callPreHook_timer : (callPreHook s).timer = s.timer := by unfold callPreHook; split <;> rfl
@[simp] theorem callPreHook_status : (callPreHook s).status = s.status := by unfold callPreHook; split <;> rfl
@[simp] theorem callPreHook_bank : (callPreHook s).bank = s.bank := by unfold callPreHook; split <;> rfl
@[simp] theorem callPreHook_bankLen : (callPreHook s).bankLen = s.bankLen := by unfold callPreHook; split <;> rfl
@[simp] theorem callPreHook_cfg : (callPreHook s).cfg = s.cfg := by unfold callPreHook; split <;> rfl
@[simp] theorem callPreHook_pending : (callPreHook s).pending = s.pending := by unfold callPreHook; split <;> rfl
@[simp] theorem callPreHook_sent : (callPreHook s).sent = s.sent := by unfold callPreHook; split <;> rfl
@[simp] theorem callPreHook_events : (callPreHook s).events = s.events ++ (if s.cfg.hasPreHook then [.pre] else []) := by
  unfold callPreHook; split <;> simp
@[simp] theorem callPreHook_refused : (callPreHook s).refused = s.refused := by unfold callPreHook; split <;> rfl
@[simp] theorem callPreHook_reply : (callPreHook s).reply = s.reply := by unfold callPreHook; split <;> rfl
@[simp] theorem callPreHook_schedule : (callPreHook s).schedule = s.schedule := by unfold callPreHook; split <;> rfl

/-! `callPostHook` -/

@[simp] theorem callPostHook_phase : (callPostHook s).phase = s.phase := by unfold callPostHook; split <;> rfl
@[simp] theorem callPostHook_sendStep : (callPostHook s).sendStep = s.sendStep := by unfold callPostHook; split <;> rfl
@[simp] theorem callPostHook_reqSlave : (callPostHook s).reqSlave = s.reqSlave := by unfold callPostHook; split <;> rfl
@[simp] theorem callPostHook_reqFc : (callPostHook s).reqFc = s.reqFc := by unfold callPostHook; split <;> rfl
@[simp] theorem callPostHook_txf : (callPostHook s).txf = s.txf := by unfold callPostHook; split <;> rfl
@[simp] theorem callPostHook_txIdx : (callPostHook s).txIdx = s.txIdx := by unfold callPostHook; split <;> rfl
@[simp] theorem callPostHook_drainCount : (callPostHook s).drainCount = s.drainCount := by unfold callPostHook; split <;> rfl
@[simp] theorem callPostHook_rx : (callPostHook s).rx = s.rx := by unfold callPostHook; split <;> rfl
@[simp] theorem callPostHook_rxLen : (callPostHook s).rxLen = s.rxLen := by unfold callPostHook; split <;> rfl
@[simp] theorem callPostHook_expected : (callPostHook s).expected = s.expected := by unfold callPostHook; split <;> rfl
@[simp] theorem callPostHook_timer : (callPostHook s).timer = s.timer := by unfold callPostHook; split <;> rfl
@[simp] theorem callPostHook_status : (callPostHook s).status = s.status := by unfold callPostHook; split <;> rfl
@[simp] theorem callPostHook_bank : (callPostHook s).bank = s.bank := by unfold callPostHook; split <;> rfl
@[simp] theorem callPostHook_bankLen : (callPostHook s).bankLen = s.bankLen := by unfold callPostHook; split <;> rfl
@[simp] theorem callPostHook_cfg : (callPostHook s).cfg = s.cfg := by unfold callPostHook; split <;> rfl
@[simp] theorem callPostHook_pending : (callPostHook s).pending = s.pending := by unfold callPostHook; split <;> rfl
@[simp] theorem callPostHook_sent : (callPostHook s).sent = s.sent := by unfold callPostHook; split <;> rfl
@[simp] theorem callPostHook_events : (callPostHook s).events = s.events ++ (if s.cfg.hasPostHook then [.post] else []) := by
  unfold callPostHook; split <;> simp
@[simp] theorem callPostHook_refused : (callPostHook s).refused = s.refused := by unfold callPostHook; split <;> rfl
@[simp] theorem callPostHook_reply : (callPostHook s).reply = s.reply := by unfold callPostHook; split <;> rfl
@[simp] theorem callPostHook_schedule : (callPostHook s).schedule = s.schedule := by unfold callPostHook; split <;> rfl

end

end Sys2Proof.Machine
end

