-- ==== Sys2Proof/Laws/Ops.lean ====
section
/-! SUPPORT. What the shared operations over the accumulator, the bank, the CRC and the transport do. -/

namespace Sys2Proof.Machine

@[simp] theorem andThen_next (s : State) (f : State → Result) : andThen (.next s) f = f s := rfl

@[simp] theorem andThen_fault (e : Fault) (f : State → Result) : andThen (.fault e) f = .fault e := rfl

@[simp] theorem andThen_refused (e : Refusal) (f : State → Result) : andThen (.refused e) f = .refused e := rfl

/-- Where two steps lead to a next state, the first led to one. -/
theorem andThen_eq_next {r : Result} {f : State → Result} {t : State} (h : andThen r f = .next t) :
    ∃ s, r = .next s ∧ f s = .next t := by
  cases r with
  | next s => exact ⟨s, rfl, h⟩
  | fault e => simp at h
  | refused e => simp at h

theorem andThen_assoc (r : Result) (f g : State → Result) :
    andThen (andThen r f) g = andThen r fun s => andThen (f s) g := by
  cases r <;> rfl

@[simp] theorem runTurns_nil (s : State) : runTurns [] s = .next s := rfl

@[simp] theorem runTurns_cons (t : Turn) (ts : List Turn) (s : State) :
    runTurns (t :: ts) s = andThen (takeTurn t s) (runTurns ts) := rfl

@[simp] theorem runSteps_zero (s : State) : runSteps 0 s = .next s := rfl

@[simp] theorem runSteps_succ (n : Nat) (s : State) : runSteps (n + 1) s = andThen (step s) (runSteps n) := rfl

/-- Turns split wherever one likes. -/
theorem runTurns_append (ts us : List Turn) (s : State) :
    runTurns (ts ++ us) s = andThen (runTurns ts s) (runTurns us) := by
  induction ts generalizing s with
  | nil => rfl
  | cons t ts ih =>
    simp only [List.cons_append, runTurns_cons, andThen_assoc]
    congr 1
    funext s'
    exact ih s'

/-- The CRC of joined sequences goes on from the first one's (R100). -/
theorem crcFrom_append (c : Reg) (xs ys : List Byte) : crcFrom c (xs ++ ys) = crcFrom (crcFrom c xs) ys :=
  List.foldl_append

/-- An append leaves every other accumulator byte alone. -/
theorem rxByte_rxAppend_ne {s : State} {b : Byte} {i : Nat} (h : s.rxLen ≠ i) :
    rxByte (rxAppend b s) i = rxByte s i := by
  simp [rxByte, h]

/-- An append is read back at its index (R132). -/
theorem rxByte_rxAppend_self {s : State} {b : Byte} (h : s.rxLen < rxCap) :
    rxByte (rxAppend b s) s.rxLen = b := by
  simp [rxByte, h]

/-- The accumulated bytes grow by the appended one (R132). -/
theorem rxBytes_rxAppend {s : State} {b : Byte} (h : s.rxLen < rxCap) :
    rxBytes (rxAppend b s) = rxBytes s ++ [b] := by
  have hl : s.rxLen < s.rx.toList.length := by simpa using h
  simp only [rxBytes, rxAppend_rx, rxAppend_rxLen, Vector.toList_setIfInBounds]
  rw [List.take_add_one, List.take_set_of_le (Nat.le_refl _), List.getElem?_set_self hl]
  rfl

theorem setRegs_get_lt {bank : Vector Reg bankCap} {i k : Nat} {regs : List Reg} (h : k < i) :
    (setRegs bank i regs)[k]? = bank[k]? := by
  induction regs generalizing bank i with
  | nil => rfl
  | cons r rest ih =>
    simp only [setRegs]
    rw [ih (by omega)]
    simp [Nat.ne_of_gt h]

/-- A filled register holds what was written, and the others keep what they held (R170). -/
theorem setRegs_get {bank : Vector Reg bankCap} {i k : Nat} {regs : List Reg} (hk : i + k < bankCap) :
    (setRegs bank i regs)[i + k]? = if h : k < regs.length then some regs[k] else bank[i + k]? := by
  induction regs generalizing bank i k with
  | nil => simp [setRegs]
  | cons r rest ih =>
    simp only [setRegs]
    cases k with
    | zero =>
      have hi : i < bankCap := hk
      rw [show i + 0 = i from rfl, setRegs_get_lt (Nat.lt_succ_self i)]
      simp [hi]
    | succ k =>
      rw [show i + (k + 1) = i + 1 + k by omega, ih (by omega)]
      simp [show i ≠ i + 1 + k by omega]

theorem bankReg_fillBank {regs : List Reg} {s : State} {k : Nat} (hk : k < bankCap) :
    bankReg (fillBank regs s) k = if h : k < regs.length then regs[k] else bankReg s k := by
  have h := setRegs_get (bank := s.bank) (i := 0) (k := k) (regs := regs) (by omega)
  simp only [Nat.zero_add] at h
  simp only [bankReg, fillBank_bank, h]
  split <;> rfl

@[simp] theorem bankRegs_length (s : State) (i n : Nat) : (bankRegs s i n).length = n := by simp [bankRegs]

end Sys2Proof.Machine
end

