-- ==== Sys2Proof/Laws/Engine.lean ====
section
/-! SUPPORT. Everything each shared engine operation can do, said once. -/

namespace Sys2Proof.Machine

variable {s t : State}

/-- The four ways a header check ends (R133, R134). -/
theorem headerCheck_cases (h : headerCheck s = .next t) :
    (rxByte s 0 ≠ s.reqSlave ∧ t = finish .invalidSlaveId s) ∨
    (rxByte s 0 = s.reqSlave ∧ maskedFunction (rxByte s 1) ≠ s.reqFc ∧ t = finish .invalidFunction s) ∨
    (rxByte s 0 = s.reqSlave ∧ maskedFunction (rxByte s 1) = s.reqFc ∧ exceptionBit (rxByte s 1) = true ∧
      t = finish (.modbusException (rxByte s 2)) s) ∨
    (rxByte s 0 = s.reqSlave ∧ maskedFunction (rxByte s 1) = s.reqFc ∧ exceptionBit (rxByte s 1) = false ∧
      ∃ n, responseLength s.reqFc (rxByte s 2) = some n ∧ t = { s with expected := some n, phase := .awaitingBody }) := by
  unfold headerCheck at h
  split at h
  · injection h with h
    exact .inl ⟨‹_›, h.symm⟩
  · have h0 : rxByte s 0 = s.reqSlave := Decidable.not_not.mp ‹_›
    split at h
    · injection h with h
      exact .inr (.inl ⟨h0, ‹_›, h.symm⟩)
    · have h1 : maskedFunction (rxByte s 1) = s.reqFc := Decidable.not_not.mp ‹_›
      split at h
      · injection h with h
        exact .inr (.inr (.inl ⟨h0, h1, ‹_›, h.symm⟩))
      · have h2 : exceptionBit (rxByte s 1) = false := by simpa using ‹¬exceptionBit (rxByte s 1) = true›
        split at h
        · cases h
        · injection h with h
          exact .inr (.inr (.inr ⟨h0, h1, h2, _, ‹_›, h.symm⟩))

/-- The two ways a completion ends (R135, R136). -/
theorem complete_cases (s : State) :
    (crcCheck (rxBytes s) = true ∧ complete s = finish .success (disassemble s)) ∨
    (crcCheck (rxBytes s) = false ∧ complete s = finish .invalidCrc s) := by
  unfold complete
  cases crcCheck (rxBytes s) <;> simp

/-- A disassembly writes the bank and its length, for a read code, and nothing else (R170, R173). -/
theorem disassemble_cases (s : State) :
    (∃ regs, disassemble s = fillBank regs s ∧ readCode s.reqFc = true ∧
      (regs = disasmBits (payload s) ∨ regs = disasmWords (payload s))) ∨
    (disassemble s = s ∧ readCode s.reqFc = false) := by
  unfold disassemble readCode
  split <;> simp_all
  · exact ⟨_, rfl, .inl rfl⟩
  · exact ⟨_, rfl, .inr rfl⟩

/-- What a poll does with the byte it read (R131, R132). -/
theorem takeByte_cases {b : Byte} (h : takeByte b s = .next t) :
    s.rxLen < rxCap ∧ ∃ m, headerStage (rxAppend b s) = .next m ∧ t = completeStage m := by
  unfold takeByte at h
  split at h
  · obtain ⟨m, hm, ht⟩ := andThen_eq_next h
    injection ht with ht
    exact ⟨‹_›, m, hm, ht.symm⟩
  · cases h

/-- The three ways a poll ends: the deadline has passed, nothing is pending, or one byte is taken (R131). -/
theorem poll_cases (h : poll s = .next t) :
    (s.cfg.deadlineTicks ≤ s.timer ∧ t = finish .responseTimeout s) ∨
    (s.timer < s.cfg.deadlineTicks ∧ s.pending = [] ∧ t = tryRead s) ∨
    (s.timer < s.cfg.deadlineTicks ∧ ∃ b rest, s.pending = b :: rest ∧ takeByte b (tryRead s) = .next t) := by
  unfold poll at h
  split at h
  · injection h with h
    exact .inl ⟨‹_›, h.symm⟩
  · have hd : s.timer < s.cfg.deadlineTicks := Nat.lt_of_not_le ‹_›
    cases hp : s.pending with
    | nil =>
      simp only [readAnswer, hp, List.head?_nil] at h
      injection h with h
      exact .inr (.inl ⟨hd, rfl, h.symm⟩)
    | cons b rest =>
      simp only [readAnswer, hp, List.head?_cons] at h
      exact .inr (.inr ⟨hd, b, rest, rfl, h⟩)

/-- The three ways a drain step ends: the bound is reached, nothing is pending, or one byte is discarded (R125). -/
theorem drain_cases (s : State) :
    (s.drainCount = s.cfg.drainMax ∧ drain s = { s with sendStep := .preHook }) ∨
    (s.drainCount ≠ s.cfg.drainMax ∧ s.pending = [] ∧ drain s = { tryRead s with sendStep := .preHook }) ∨
    (s.drainCount ≠ s.cfg.drainMax ∧ s.pending ≠ [] ∧ drain s = { tryRead s with drainCount := s.drainCount + 1 }) := by
  unfold drain
  split
  · exact .inl ⟨‹_›, rfl⟩
  · cases hp : s.pending with
    | nil => exact .inr (.inl ⟨‹_›, rfl, by simp [readAnswer, hp]⟩)
    | cons b rest => exact .inr (.inr ⟨‹_›, by simp, by simp [readAnswer, hp]⟩)

/-- A transmit step writes the byte at its index (R127). -/
theorem tx_cases (h : tx s = .next t) :
    ∃ b, s.txf[s.txIdx]? = some b ∧
      t = { writeByte b s with
            txIdx := s.txIdx + 1
            sendStep := if s.txIdx + 1 = s.txf.length then .flush else s.sendStep } := by
  unfold tx at h
  split at h
  · cases h
  · injection h with h
    exact ⟨_, ‹_›, h.symm⟩

/-- The settle step holds, or starts the response phase (R130). -/
theorem settle_cases (s : State) :
    (s.timer < s.cfg.settleTicks ∧ settle s = s) ∨
    (s.cfg.settleTicks ≤ s.timer ∧ settle s = { s with phase := .awaitingHeader, timer := 0 }) := by
  unfold settle
  split
  · exact .inl ⟨‹_›, rfl⟩
  · exact .inr ⟨Nat.le_of_not_lt ‹_›, rfl⟩

/-- The engine's turn, by phase: nothing, a step of `Sending`, or a poll (R124, R137). -/
theorem engineStep_cases (s : State) :
    ((s.phase = .idle ∨ s.phase = .done) ∧ engineStep s = .next s) ∨
    (s.phase = .sending ∧ engineStep s = sendingStep s) ∨
    (receiving s = true ∧ engineStep s = poll s) := by
  unfold engineStep receiving
  cases h : s.phase <;> simp

/-- The registers of a bit-oriented read are half the payload's bytes, rounded up (R171). -/
theorem disasmBits_length (p : List Byte) : (disasmBits p).length = (p.length + 1) / 2 := by
  induction p using disasmBits.induct with
  | case1 => simp [disasmBits]
  | case2 => simp [disasmBits]
  | case3 lo hi rest ih => simp [disasmBits, ih]; omega

/-- The registers of a word-oriented read are half the payload's bytes, rounded down (R172). -/
theorem disasmWords_length (p : List Byte) : (disasmWords p).length = p.length / 2 := by
  induction p using disasmWords.induct with
  | case1 => simp [disasmWords]
  | case2 => simp [disasmWords]
  | case3 hi lo rest ih => simp [disasmWords, ih]; omega

end Sys2Proof.Machine
end

