-- ==== Sys2Proof/Laws/Commands.lean ====
section
/-! SUPPORT. Everything a command can do to the state, said once. -/

namespace Sys2Proof.Machine

variable {s t : State}

/-- Only an answer was given: nothing but `reply` and the sticky mark may differ (R61, R121, R202). -/
abbrev OnlyAnswers (s t : State) : Prop := (∃ r, t = answer r s) ∨ ∃ c, t = refuse c s

/-- A bank read answers a value or DecodeOutOfRange and changes nothing else (R175, R181, R202). -/
theorem readBank_cases {start n : Nat} {f : List Reg → Reply} (h : readBank start n f s = .next t) :
    (s.bankLen < start + n ∧ t = answer (.error .decodeOutOfRange) s) ∨
    (start + n ≤ s.bankLen ∧ start + n ≤ bankCap ∧ t = answer (f (bankRegs s start n)) s) := by
  unfold readBank at h
  split at h
  · injection h with h
    exact .inl ⟨‹_›, h.symm⟩
  · split at h
    · cases h
    · injection h with h
      exact .inr ⟨Nat.le_of_not_lt ‹_›, Nat.le_of_not_lt ‹_›, h.symm⟩

/-- A bank read inside the bank answers (R51, R181). -/
theorem readBank_in_range {start n : Nat} {f : List Reg → Reply} (h : start + n ≤ s.bankLen)
    (hc : s.bankLen ≤ bankCap) : readBank start n f s = .next (answer (f (bankRegs s start n)) s) := by
  unfold readBank
  rw [if_neg (Nat.not_lt.mpr h), if_neg (Nat.not_lt.mpr (Nat.le_trans h hc))]

theorem readBank_onlyAnswers {start n : Nat} {f : List Reg → Reply} (h : readBank start n f s = .next t) :
    OnlyAnswers s t := by
  obtain ⟨-, h⟩ | ⟨-, -, h⟩ := readBank_cases h <;> exact .inl ⟨_, h⟩

/-- A decode of a legal type answers and changes nothing else (R180, R199). -/
theorem decodeTyped_onlyAnswers {ty : NumType} {start : Nat} {order : Order}
    (h : decodeTyped ty start order s = .next t) : OnlyAnswers s t := by
  unfold decodeTyped at h
  split at h
  · injection h with h
    exact .inr ⟨_, h.symm⟩
  · exact readBank_onlyAnswers h

/-- What EXEC_START can do: refuse, end at once, or start sending (R121 to R123). -/
theorem startTransaction_cases {slave fc : Byte} {start qty : Reg} {extra : List Byte}
    (h : startTransaction slave fc start qty extra s = .next t) :
    (∃ c, t = refuse c s ∧ (busy s = true ∨ listedCode fc = false ∨ legalSlave slave = false)) ∨
    (busy s = false ∧ listedCode fc = true ∧ legalSlave slave = true ∧
      t = answer .started (launch (buildFrame slave fc start qty extra) (latchRequest slave fc s))) := by
  unfold startTransaction at h
  split at h
  · injection h with h
    exact .inl ⟨_, h.symm, .inl ‹_›⟩
  · have hb : busy s = false := by simpa using ‹¬busy s = true›
    split at h
    · injection h with h
      exact .inl ⟨_, h.symm, .inr (.inl (by simpa using ‹(!listedCode fc) = true›))⟩
    · split at h
      · injection h with h
        exact .inl ⟨_, h.symm, .inr (.inr (by simpa using ‹(!legalSlave slave) = true›))⟩
      · injection h with h
        exact .inr ⟨hb, by simpa using ‹¬(!listedCode fc) = true›, by simpa using ‹¬(!legalSlave slave) = true›, h.symm⟩

/-- The length of a body is the payload's and six (R72). -/
@[simp] theorem requestBody_length (slave fc : Byte) (start qty : Reg) (extra : List Byte) :
    (requestBody slave fc start qty extra).length = 6 + extra.length := by
  simp [requestBody]; omega

/-- BUILD fails exactly for a payload of more than 248 bytes (R111). -/
theorem buildFrame_none_iff {slave fc : Byte} {start qty : Reg} {extra : List Byte} :
    buildFrame slave fc start qty extra = none ↔ 248 < extra.length := by
  simp only [buildFrame, requestBody_length, txCap]
  split <;> simp <;> omega

/-- The frame BUILD returns (R110). -/
theorem buildFrame_some {slave fc : Byte} {start qty : Reg} {extra f : List Byte}
    (h : buildFrame slave fc start qty extra = some f) :
    extra.length ≤ 248 ∧ f = appendCrc (requestBody slave fc start qty extra) := by
  simp only [buildFrame, requestBody_length, txCap] at h
  split at h
  · cases h
  · injection h with h
    exact ⟨by omega, h.symm⟩

/-- The instruction is an exception response (R77). -/
def IsExceptionResponse (i : Instr) : Prop :=
  ∃ slave fc code crcLo crcHi, i = .exceptionResponse slave fc code crcLo crcHi

theorem toInstr_eq_ok {α : Type} {f : α → Instr} {p : Parsed α} {i : Instr} {rest : List Byte}
    (h : p.toInstr f = .ok (i, rest)) : ∃ a, i = f a := by
  cases p with
  | error e => cases h
  | ok x => injection h with h; injection h with h _; exact ⟨x.1, h.symm⟩

/-- No command is an exception response (R70, R71). -/
theorem decodeCmd_notException {bytes rest : List Byte} {i : Instr} (h : decodeCmd bytes = .ok (i, rest)) :
    ¬ IsExceptionResponse i := by
  rintro ⟨slave, fc, code, crcLo, crcHi, rfl⟩
  simp only [decodeCmd, decodeRequestOperands, decodeDecodeOperands] at h
  repeat' split at h
  all_goals first
    | cases h
    | exact nomatch toInstr_eq_ok h

/-- No request is an exception response (R79). -/
theorem decodeRequest_notException {bytes : List Byte} {i : Instr} (h : decodeRequest bytes = .ok i) :
    ¬ IsExceptionResponse i := by
  rintro ⟨slave, fc, code, crcLo, crcHi, rfl⟩
  simp only [decodeRequest, requestOf] at h
  repeat' split at h
  all_goals simp at h

/-- No descriptor row is an exception response (R88). -/
theorem encRowOf_notException {enc : Byte} {start : Nat} {i : Instr} (h : encRowOf enc start = .ok i) :
    ¬ IsExceptionResponse i := by
  rintro ⟨slave, fc, code, crcLo, crcHi, rfl⟩
  unfold encRowOf at h
  split at h
  · injection h with h
    unfold decodeRowOf at h
    split at h <;> cases h
  · split at h <;> cases h

/-- Every response frame that is an instruction is an exception response (R77, R81). -/
theorem decodeResponse_exception {bytes : List Byte} {i : Instr} (h : decodeResponse bytes = .ok i) :
    IsExceptionResponse i := by
  unfold decodeResponse at h
  split at h
  · split at h
    · injection h with h
      exact ⟨_, _, _, _, _, h.symm⟩
    · cases h
  · cases h

/-- What decodes is what its format's decoder read from all the bytes. -/
theorem decode_eq_ok {c : Command} {i : Instr} (h : decode c = .ok i) :
    decodeBytes c.format c.bytes = .ok (i, []) := by
  unfold decode at h
  split at h
  · cases h
  · split at h
    · rename_i hb hr
      injection h with h
      rw [hb, h, List.isEmpty_iff.mp hr]
    · cases h

theorem takesAll_eq_ok {r : Except DecodeError Instr} {i : Instr} {rest : List Byte}
    (h : takesAll r = .ok (i, rest)) : r = .ok i := by
  cases r with
  | error e => cases h
  | ok i' => injection h with h; injection h with h _; rw [h]

/-- The response format holds the exception responses, and no other format holds one (R77): so a command turn is the
transport's exactly when it begins one (R4). -/
theorem decode_format {c : Command} {i : Instr} (h : decode c = .ok i) :
    c.format = .aduResponse ↔ IsExceptionResponse i := by
  have hb := decode_eq_ok h
  cases hf : c.format <;> simp only [hf, decodeBytes] at hb
  · simpa using decodeCmd_notException hb
  · simpa using decodeRequest_notException (takesAll_eq_ok hb)
  · simpa using decodeResponse_exception (takesAll_eq_ok hb)
  · simp only [reduceCtorEq, false_iff]
    unfold decodeEnc at hb
    split at hb
    · cases hb
    · split at hb
      · cases hb
      · split at hb
        · cases hb
        · rename_i hr
          injection hb with hb
          injection hb with hb _
          exact encRowOf_notException (hb ▸ hr)

/-- The five ways an agent's turn goes (R4). -/
theorem takeTurn_cases {u : Turn} (h : takeTurn u s = .next t) :
    (∃ c i, u = .command c ∧ decode c = .ok i ∧ exec i s = .next t) ∨
    (u = .engine ∧ engineStep s = .next t) ∨
    (u = .tick ∧ t = tick s) ∨
    (∃ b, u = .arrive b ∧ t = arrive b s) ∨
    (∃ cfg, u = .reset cfg ∧ t = resetBlock cfg s) := by
  cases u with
  | command c =>
    simp only [takeTurn, runCommand] at h
    split at h
    · exact .inl ⟨c, _, rfl, ‹_›, h⟩
    · cases h
  | engine => exact .inr (.inl ⟨rfl, h⟩)
  | tick => injection h with h; exact .inr (.inr (.inl ⟨rfl, h.symm⟩))
  | arrive b => injection h with h; exact .inr (.inr (.inr (.inl ⟨b, rfl, h.symm⟩)))
  | reset cfg => injection h with h; exact .inr (.inr (.inr (.inr ⟨cfg, rfl, h.symm⟩)))

end Sys2Proof.Machine
end

