-- ==== Sys2Proof/Laws/PerInstr.lean ====
section
/-! SUPPORT. Facts about every instruction as syntax, one lemma per constructor. -/

namespace Sys2Proof.Laws.KeyOfRow

open Sys2Proof.Machine

/-- The byte of an encoding that its format's table rows are matched on: the selector of a command, byte 1 of a request or a
response, the descriptor of a decode (spec/opcode_table.json). -/
def keyByte (c : Command) : Option Byte :=
  match c.format with
  | .cmd | .enc => c.bytes[0]?
  | .aduRequest | .aduResponse => c.bytes[1]?

/-- A row of the opcode table: its format, its mask and its match. -/
structure Row where
  format : Format
  mask : Byte
  value : Byte

/-- The row of an instruction, as spec/opcode_table.json lists it. -/
def rowOf : Instr → Row
  | .crc16 _ => ⟨.cmd, 0x07#8, 0x00#8⟩
  | .crcCheck _ => ⟨.cmd, 0x07#8, 0x01#8⟩
  | .build _ _ _ _ _ => ⟨.cmd, 0x07#8, 0x02#8⟩
  | .exec _ _ _ _ _ => ⟨.cmd, 0x07#8, 0x03#8⟩
  | .result => ⟨.cmd, 0x07#8, 0x04#8⟩
  | .bankRead _ => ⟨.cmd, 0x07#8, 0x05#8⟩
  | .decode _ _ => ⟨.cmd, 0x07#8, 0x06#8⟩
  | .reservedOp7 => ⟨.cmd, 0x07#8, 0x07#8⟩
  | .readCoils _ _ _ _ => ⟨.aduRequest, 0xFF#8, 0x01#8⟩
  | .readDiscreteInputs _ _ _ _ => ⟨.aduRequest, 0xFF#8, 0x02#8⟩
  | .readHoldingRegisters _ _ _ _ => ⟨.aduRequest, 0xFF#8, 0x03#8⟩
  | .readInputRegisters _ _ _ _ => ⟨.aduRequest, 0xFF#8, 0x04#8⟩
  | .writeSingleCoil _ _ _ _ => ⟨.aduRequest, 0xFF#8, 0x05#8⟩
  | .writeSingleRegister _ _ _ _ => ⟨.aduRequest, 0xFF#8, 0x06#8⟩
  | .writeMultipleCoils _ _ _ _ => ⟨.aduRequest, 0xFF#8, 0x0F#8⟩
  | .writeMultipleRegisters _ _ _ _ => ⟨.aduRequest, 0xFF#8, 0x10#8⟩
  | .maskWriteRegister _ _ _ _ => ⟨.aduRequest, 0xFF#8, 0x16#8⟩
  | .readWriteMultipleRegisters _ _ _ _ => ⟨.aduRequest, 0xFF#8, 0x17#8⟩
  | .exceptionResponse _ _ _ _ _ => ⟨.aduResponse, 0x80#8, 0x80#8⟩
  | .decodeU16 _ _ => ⟨.enc, 0xCF#8, 0x00#8⟩
  | .decodeS16 _ _ => ⟨.enc, 0xCF#8, 0x04#8⟩
  | .decodeU32 _ _ => ⟨.enc, 0xCF#8, 0x01#8⟩
  | .decodeS32 _ _ => ⟨.enc, 0xCF#8, 0x05#8⟩
  | .decodeF32 _ _ => ⟨.enc, 0xCF#8, 0x09#8⟩
  | .decodeU64 _ _ => ⟨.enc, 0xCF#8, 0x02#8⟩
  | .decodeS64 _ _ => ⟨.enc, 0xCF#8, 0x06#8⟩
  | .decodeF64 _ _ => ⟨.enc, 0xCF#8, 0x0A#8⟩
  | .decodeF16Reserved _ _ => ⟨.enc, 0xCF#8, 0x08#8⟩

/-- The encoding of an instruction is in its row's format, and its key byte matches its row. -/
def Statement (i : Instr) : Prop :=
  (encode i).format = (rowOf i).format ∧ ∃ k, keyByte (encode i) = some k ∧ k &&& (rowOf i).mask = (rowOf i).value

/-- The key byte of a descriptor, whatever its order. -/
theorem encByte_key {low : Nat} (h : low ∈ [0x00, 0x04, 0x01, 0x05, 0x09, 0x02, 0x06, 0x0A, 0x08]) (order : Order) :
    encByte low order &&& 0xCF#8 = BitVec.ofNat 8 low := by
  simp only [List.mem_cons, List.not_mem_nil, or_false] at h
  rcases h with h | h | h | h | h | h | h | h | h <;> subst h <;> cases order <;> rfl

/-- The exception bit is set whatever the function code (R77). -/
theorem exception_key (fc : BitVec 7) : (1#1 ++ fc : Byte) &&& 0x80#8 = 0x80#8 := by
  revert fc
  decide

theorem crc16 (data : List Byte) :
    Statement (.crc16 data) := ⟨rfl, _, rfl, by simp [rowOf]⟩

theorem crcCheck (frame : List Byte) :
    Statement (.crcCheck frame) := ⟨rfl, _, rfl, by simp [rowOf]⟩

theorem build (slave : Byte) (fc : Byte) (start : Reg) (qty : Reg) (extra : List Byte) :
    Statement (.build slave fc start qty extra) := ⟨rfl, _, rfl, by simp [rowOf]⟩

theorem exec (slave : Byte) (fc : Byte) (start : Reg) (qty : Reg) (extra : List Byte) :
    Statement (.exec slave fc start qty extra) := ⟨rfl, _, rfl, by simp [rowOf]⟩

theorem result : Statement .result := ⟨rfl, _, rfl, by simp [rowOf]⟩

theorem bankRead (i : Nat) :
    Statement (.bankRead i) := ⟨rfl, _, rfl, by simp [rowOf]⟩

theorem decode (start : Nat) (enc : Byte) :
    Statement (.decode start enc) := ⟨rfl, _, rfl, by simp [rowOf]⟩

theorem reservedOp7 : Statement .reservedOp7 := ⟨rfl, _, rfl, by simp [rowOf]⟩

theorem readCoils (slave : Byte) (start : Reg) (qty : Reg) (extra : List Byte) :
    Statement (.readCoils slave start qty extra) := ⟨rfl, _, rfl, by simp [rowOf]⟩

theorem readDiscreteInputs (slave : Byte) (start : Reg) (qty : Reg) (extra : List Byte) :
    Statement (.readDiscreteInputs slave start qty extra) := ⟨rfl, _, rfl, by simp [rowOf]⟩

theorem readHoldingRegisters (slave : Byte) (start : Reg) (qty : Reg) (extra : List Byte) :
    Statement (.readHoldingRegisters slave start qty extra) := ⟨rfl, _, rfl, by simp [rowOf]⟩

theorem readInputRegisters (slave : Byte) (start : Reg) (qty : Reg) (extra : List Byte) :
    Statement (.readInputRegisters slave start qty extra) := ⟨rfl, _, rfl, by simp [rowOf]⟩

theorem writeSingleCoil (slave : Byte) (start : Reg) (qty : Reg) (extra : List Byte) :
    Statement (.writeSingleCoil slave start qty extra) := ⟨rfl, _, rfl, by simp [rowOf]⟩

theorem writeSingleRegister (slave : Byte) (start : Reg) (qty : Reg) (extra : List Byte) :
    Statement (.writeSingleRegister slave start qty extra) := ⟨rfl, _, rfl, by simp [rowOf]⟩

theorem writeMultipleCoils (slave : Byte) (start : Reg) (qty : Reg) (extra : List Byte) :
    Statement (.writeMultipleCoils slave start qty extra) := ⟨rfl, _, rfl, by simp [rowOf]⟩

theorem writeMultipleRegisters (slave : Byte) (start : Reg) (qty : Reg) (extra : List Byte) :
    Statement (.writeMultipleRegisters slave start qty extra) := ⟨rfl, _, rfl, by simp [rowOf]⟩

theorem maskWriteRegister (slave : Byte) (start : Reg) (qty : Reg) (extra : List Byte) :
    Statement (.maskWriteRegister slave start qty extra) := ⟨rfl, _, rfl, by simp [rowOf]⟩

theorem readWriteMultipleRegisters (slave : Byte) (start : Reg) (qty : Reg) (extra : List Byte) :
    Statement (.readWriteMultipleRegisters slave start qty extra) := ⟨rfl, _, rfl, by simp [rowOf]⟩

theorem exceptionResponse (slave : Byte) (fc : BitVec 7) (code : Byte) (crcLo : Byte) (crcHi : Byte) :
    Statement (.exceptionResponse slave fc code crcLo crcHi) := ⟨rfl, _, rfl, exception_key fc⟩

theorem decodeU16 (start : Nat) (order : Order) :
    Statement (.decodeU16 start order) := ⟨rfl, _, rfl, encByte_key (by decide) order⟩

theorem decodeS16 (start : Nat) (order : Order) :
    Statement (.decodeS16 start order) := ⟨rfl, _, rfl, encByte_key (by decide) order⟩

theorem decodeU32 (start : Nat) (order : Order) :
    Statement (.decodeU32 start order) := ⟨rfl, _, rfl, encByte_key (by decide) order⟩

theorem decodeS32 (start : Nat) (order : Order) :
    Statement (.decodeS32 start order) := ⟨rfl, _, rfl, encByte_key (by decide) order⟩

theorem decodeF32 (start : Nat) (order : Order) :
    Statement (.decodeF32 start order) := ⟨rfl, _, rfl, encByte_key (by decide) order⟩

theorem decodeU64 (start : Nat) (order : Order) :
    Statement (.decodeU64 start order) := ⟨rfl, _, rfl, encByte_key (by decide) order⟩

theorem decodeS64 (start : Nat) (order : Order) :
    Statement (.decodeS64 start order) := ⟨rfl, _, rfl, encByte_key (by decide) order⟩

theorem decodeF64 (start : Nat) (order : Order) :
    Statement (.decodeF64 start order) := ⟨rfl, _, rfl, encByte_key (by decide) order⟩

theorem decodeF16Reserved (start : Nat) (order : Order) :
    Statement (.decodeF16Reserved start order) := ⟨rfl, _, rfl, encByte_key (by decide) order⟩

end Sys2Proof.Laws.KeyOfRow
end

