-- ==== Sys2Proof/Tests/Slice0.lean ====
section
/-! SUPPORT. Tests of one decode or one step each; every expected value is written out from the spec rule or vector its
comment names. After them, for every obligation with hypotheses, a witness that meets them. -/

namespace Sys2Proof.Tests

open Sys2Proof.Machine

set_option Elab.async false

/-! ### Small states -/

/-- The configuration of 95_test_vectors.md section 0. -/
def cfg0 : Cfg := ⟨5, 2, 4, true, true⟩

/-- After power-on, with these bytes pending. -/
def idle (pending : List Byte) : State := State.powerOn cfg0 pending false []

/-- A finished read, with these registers in the bank. -/
def holding (regs : List Reg) : State :=
  { fillBank regs (idle []) with phase := .done, status := some .success, reqSlave := 0x01#8, reqFc := 0x03#8 }

/-- Sending the request of vector S7, at a sub-state. -/
def sending (st : SendStep) (pending : List Byte) : State :=
  { idle pending with
    phase := .sending
    sendStep := st
    reqSlave := 0x01#8
    reqFc := 0x03#8
    txf := [0x01#8, 0x03#8, 0x00#8, 0x0E#8, 0x00#8, 0x06#8, 0xA4#8, 0x0B#8] }

/-- Receiving from slave 1, with some bytes received and some pending. -/
def header (fc : Byte) (received pending : List Byte) : State :=
  { received.foldl (fun s b => rxAppend b s) (idle pending) with
    phase := .awaitingHeader, reqSlave := 0x01#8, reqFc := fc }

/-- The same past the header check, with a length. -/
def body (fc : Byte) (n : Nat) (received pending : List Byte) : State :=
  { header fc received pending with phase := .awaitingBody, expected := some n }

/-- What a step leads to, projected. -/
def after {α : Type} (f : State → α) : Result → Option α
  | .next s => some (f s)
  | .fault _ => none
  | .refused _ => none

/-- The instruction a decoder found. -/
def found : Except DecodeError Instr → Option Instr
  | .ok i => some i
  | .error _ => none

/-- Why a decoder found none. -/
def rejected : Except DecodeError Instr → Option DecodeError
  | .ok _ => none
  | .error why => some why

/-- A payload one byte too long for a request frame (30_encoding.md R72). -/
def tooLong : List Byte := List.replicate 249 0#8

/-! ### Well-formedness -/

/-- R72: 249 bytes are refused, 248 are not. -/
theorem test_wellFormed_readCoils :
    (Instr.readCoils 0x01#8 0#16 0#16 tooLong).wellFormed = false ∧
    (Instr.readCoils 0x01#8 0#16 0#16 tooLong.tail).wellFormed = true := by decide +kernel

/-- R72: 249 bytes are refused, 248 are not. -/
theorem test_wellFormed_readDiscreteInputs :
    (Instr.readDiscreteInputs 0x01#8 0#16 0#16 tooLong).wellFormed = false ∧
    (Instr.readDiscreteInputs 0x01#8 0#16 0#16 tooLong.tail).wellFormed = true := by decide +kernel

/-- R72: 249 bytes are refused, 248 are not. -/
theorem test_wellFormed_readHoldingRegisters :
    (Instr.readHoldingRegisters 0x01#8 0#16 0#16 tooLong).wellFormed = false ∧
    (Instr.readHoldingRegisters 0x01#8 0#16 0#16 tooLong.tail).wellFormed = true := by decide +kernel

/-- R72: 249 bytes are refused, 248 are not. -/
theorem test_wellFormed_readInputRegisters :
    (Instr.readInputRegisters 0x01#8 0#16 0#16 tooLong).wellFormed = false ∧
    (Instr.readInputRegisters 0x01#8 0#16 0#16 tooLong.tail).wellFormed = true := by decide +kernel

/-- R72: 249 bytes are refused, 248 are not. -/
theorem test_wellFormed_writeSingleCoil :
    (Instr.writeSingleCoil 0x01#8 0#16 0#16 tooLong).wellFormed = false ∧
    (Instr.writeSingleCoil 0x01#8 0#16 0#16 tooLong.tail).wellFormed = true := by decide +kernel

/-- R72: 249 bytes are refused, 248 are not. -/
theorem test_wellFormed_writeSingleRegister :
    (Instr.writeSingleRegister 0x01#8 0#16 0#16 tooLong).wellFormed = false ∧
    (Instr.writeSingleRegister 0x01#8 0#16 0#16 tooLong.tail).wellFormed = true := by decide +kernel

/-- R72: 249 bytes are refused, 248 are not. -/
theorem test_wellFormed_writeMultipleCoils :
    (Instr.writeMultipleCoils 0x01#8 0#16 0#16 tooLong).wellFormed = false ∧
    (Instr.writeMultipleCoils 0x01#8 0#16 0#16 tooLong.tail).wellFormed = true := by decide +kernel

/-- R72: 249 bytes are refused, 248 are not. -/
theorem test_wellFormed_writeMultipleRegisters :
    (Instr.writeMultipleRegisters 0x01#8 0#16 0#16 tooLong).wellFormed = false ∧
    (Instr.writeMultipleRegisters 0x01#8 0#16 0#16 tooLong.tail).wellFormed = true := by decide +kernel

/-- R72: 249 bytes are refused, 248 are not. -/
theorem test_wellFormed_maskWriteRegister :
    (Instr.maskWriteRegister 0x01#8 0#16 0#16 tooLong).wellFormed = false ∧
    (Instr.maskWriteRegister 0x01#8 0#16 0#16 tooLong.tail).wellFormed = true := by decide +kernel

/-- R72: 249 bytes are refused, 248 are not. -/
theorem test_wellFormed_readWriteMultipleRegisters :
    (Instr.readWriteMultipleRegisters 0x01#8 0#16 0#16 tooLong).wellFormed = false ∧
    (Instr.readWriteMultipleRegisters 0x01#8 0#16 0#16 tooLong.tail).wellFormed = true := by decide +kernel

/-! ### Decoding -/

/-- R70: selectors 0 to 3; the operand layout is log 2's. -/
theorem test_decode_crcAndBuild :
    found (decode ⟨.cmd, [0x00#8, 0x03#8, 0x31#8, 0x32#8, 0x33#8]⟩) = some (.crc16 [0x31#8, 0x32#8, 0x33#8]) ∧
    found (decode ⟨.cmd, [0x01#8, 0x00#8]⟩) = some (.crcCheck []) ∧
    found (decode ⟨.cmd, [0x02#8, 0x01#8, 0x16#8, 0x00#8, 0x04#8, 0x00#8, 0xF2#8, 0x02#8, 0x00#8, 0x25#8]⟩) = some (.build 0x01#8 0x16#8 0x0004#16 0x00F2#16 [0x00#8, 0x25#8]) ∧
    found (decode ⟨.cmd, [0x03#8, 0x01#8, 0x03#8, 0x00#8, 0x0E#8, 0x00#8, 0x06#8, 0x00#8]⟩) = some (.exec 0x01#8 0x03#8 0x000E#16 0x0006#16 []) := by decide +kernel

/-- R70, R71: selectors 4 to 7; 1000 is E8 07 in base 128. -/
theorem test_decode_readers :
    found (decode ⟨.cmd, [0x04#8]⟩) = some (.result) ∧
    found (decode ⟨.cmd, [0x05#8, 0xE8#8, 0x07#8]⟩) = some (.bankRead 1000) ∧
    found (decode ⟨.cmd, [0x06#8, 0x09#8, 0x01#8]⟩) = some (.decode 1 0x09#8) ∧
    found (decode ⟨.cmd, [0x07#8]⟩) = some (.reservedOp7) := by decide +kernel

/-- V6: the read requests. -/
theorem test_decode_readRequests :
    found (decode ⟨.aduRequest, [0x01#8, 0x01#8, 0x00#8, 0x13#8, 0x00#8, 0x13#8, 0x8C#8, 0x02#8]⟩) = some (.readCoils 0x01#8 0x0013#16 0x0013#16 []) ∧
    found (decode ⟨.aduRequest, [0x01#8, 0x02#8, 0x00#8, 0xC4#8, 0x00#8, 0x16#8, 0xB8#8, 0x39#8]⟩) = some (.readDiscreteInputs 0x01#8 0x00C4#16 0x0016#16 []) ∧
    found (decode ⟨.aduRequest, [0x01#8, 0x03#8, 0x00#8, 0x6B#8, 0x00#8, 0x03#8, 0x74#8, 0x17#8]⟩) = some (.readHoldingRegisters 0x01#8 0x006B#16 0x0003#16 []) ∧
    found (decode ⟨.aduRequest, [0x01#8, 0x04#8, 0x00#8, 0x08#8, 0x00#8, 0x01#8, 0xB0#8, 0x08#8]⟩) = some (.readInputRegisters 0x01#8 0x0008#16 0x0001#16 []) := by decide +kernel

/-- V6: the write requests. -/
theorem test_decode_writeRequests :
    found (decode ⟨.aduRequest, [0x01#8, 0x05#8, 0x00#8, 0xAC#8, 0xFF#8, 0x00#8, 0x4C#8, 0x1B#8]⟩) = some (.writeSingleCoil 0x01#8 0x00AC#16 0xFF00#16 []) ∧
    found (decode ⟨.aduRequest, [0x01#8, 0x06#8, 0x00#8, 0x01#8, 0x00#8, 0x03#8, 0x98#8, 0x0B#8]⟩) = some (.writeSingleRegister 0x01#8 0x0001#16 0x0003#16 []) ∧
    found (decode ⟨.aduRequest, [0x01#8, 0x0F#8, 0x00#8, 0x13#8, 0x00#8, 0x0A#8, 0x02#8, 0xCD#8, 0x01#8, 0x72#8, 0xCB#8]⟩) = some (.writeMultipleCoils 0x01#8 0x0013#16 0x000A#16 [0x02#8, 0xCD#8, 0x01#8]) ∧
    found (decode ⟨.aduRequest, [0x01#8, 0x10#8, 0x00#8, 0x01#8, 0x00#8, 0x02#8, 0x04#8, 0x00#8, 0x0A#8, 0x01#8, 0x02#8, 0x92#8, 0x30#8]⟩) = some (.writeMultipleRegisters 0x01#8 0x0001#16 0x0002#16 [0x04#8, 0x00#8, 0x0A#8, 0x01#8, 0x02#8]) ∧
    found (decode ⟨.aduRequest, [0x01#8, 0x16#8, 0x00#8, 0x04#8, 0x00#8, 0xF2#8, 0x00#8, 0x25#8, 0x67#8, 0xEE#8]⟩) = some (.maskWriteRegister 0x01#8 0x0004#16 0x00F2#16 [0x00#8, 0x25#8]) := by decide +kernel

/-- V6: the read/write request. -/
theorem test_decode_readWriteRequest :
    found (decode ⟨.aduRequest,
      [0x01#8, 0x17#8, 0x00#8, 0x03#8, 0x00#8, 0x06#8, 0x00#8, 0x0E#8, 0x00#8, 0x03#8, 0x06#8, 0x00#8, 0xFF#8, 0x00#8, 0xFF#8, 0x00#8, 0xFF#8, 0x46#8, 0x91#8]⟩) =
      some (.readWriteMultipleRegisters 0x01#8 0x0003#16 0x0006#16
      [0x00#8, 0x0E#8, 0x00#8, 0x03#8, 0x06#8, 0x00#8, 0xFF#8, 0x00#8, 0xFF#8, 0x00#8, 0xFF#8]) := by decide +kernel

/-- S9: the exception response of function 3. -/
theorem test_decode_exceptionResponse :
    found (decode ⟨.aduResponse, [0x01#8, 0x83#8, 0x02#8, 0xC0#8, 0xF1#8]⟩) = some (.exceptionResponse 0x01#8 0x03#7 0x02#8 0xC0#8 0xF1#8) := by decide +kernel

/-- R191 to R194, R196, R197: the low four bits are the type, bits 5:4 the order. -/
theorem test_decode_integerRows :
    found (decode ⟨.enc, [0x00#8, 0x01#8]⟩) = some (.decodeU16 1 .be) ∧
    found (decode ⟨.enc, [0x24#8, 0x01#8]⟩) = some (.decodeS16 1 .beSwapped) ∧
    found (decode ⟨.enc, [0x11#8, 0x00#8]⟩) = some (.decodeU32 0 .le) ∧
    found (decode ⟨.enc, [0x35#8, 0x00#8]⟩) = some (.decodeS32 0 .leSwapped) ∧
    found (decode ⟨.enc, [0x02#8, 0x00#8]⟩) = some (.decodeU64 0 .be) ∧
    found (decode ⟨.enc, [0x16#8, 0x00#8]⟩) = some (.decodeS64 0 .le) := by decide +kernel

/-- R190, R195, R198. -/
theorem test_decode_floatRows :
    found (decode ⟨.enc, [0x39#8, 0x00#8]⟩) = some (.decodeF32 0 .leSwapped) ∧
    found (decode ⟨.enc, [0x2A#8, 0x00#8]⟩) = some (.decodeF64 0 .beSwapped) ∧
    found (decode ⟨.enc, [0x08#8, 0x00#8]⟩) = some (.decodeF16Reserved 0 .be) := by decide +kernel

/-- R70 and log 2: bytes that are no command. -/
theorem test_decode_rejects_commands :
    rejected (decode ⟨.cmd, []⟩) = some .empty ∧
    rejected (decode ⟨.cmd, [0x08#8]⟩) = some .selectorTooWide ∧
    rejected (decode ⟨.cmd, [0x00#8, 0x02#8, 0x31#8]⟩) = some .truncated ∧
    rejected (decode ⟨.cmd, [0x04#8, 0x00#8]⟩) = some .trailing ∧
    rejected (decode ⟨.cmd, [0x05#8, 0x80#8, 0x00#8]⟩) = some .paddedNatural := by decide +kernel

/-- R72, R79: bytes that are no request. -/
theorem test_decode_rejects_requests :
    rejected (decode ⟨.aduRequest, [0x01#8, 0x03#8, 0x00#8, 0x0E#8, 0x00#8, 0x06#8, 0xA4#8]⟩) = some .frameTooShort ∧
    rejected (decode ⟨.aduRequest, [0x01#8, 0x03#8, 0x00#8, 0x0E#8, 0x00#8, 0x06#8, 0xA4#8, 0x0A#8]⟩) = some .frameCrc ∧
    rejected (decode ⟨.aduRequest, [0x00#8, 0x2B#8, 0x01#8, 0x02#8, 0x03#8, 0x04#8, 0x85#8, 0x12#8]⟩) = some .unlistedFunctionCode := by decide +kernel

/-- R77, R81, R88: bytes that are no exception response and no descriptor. -/
theorem test_decode_rejects_responses :
    rejected (decode ⟨.aduResponse, [0x01#8, 0x83#8, 0x02#8, 0xC0#8]⟩) = some .responseLength ∧
    rejected (decode ⟨.aduResponse, [0x01#8, 0x03#8, 0x02#8, 0xC0#8, 0xF1#8]⟩) = some .exceptionBitClear ∧
    rejected (decode ⟨.enc, [0x03#8, 0x00#8]⟩) = some .reservedDescriptor ∧
    rejected (decode ⟨.enc, [0x0C#8, 0x00#8]⟩) = some .reservedDescriptor ∧
    rejected (decode ⟨.enc, [0x40#8, 0x00#8]⟩) = some .reservedDescriptor ∧
    rejected (decode ⟨.enc, [0x80#8, 0x00#8]⟩) = some .reservedDescriptor := by decide +kernel

/-- Log 6: bare words of four formats. -/
theorem test_decode_tableWords :
    decodeTableWord 8 0x00 = some (.crc16 []) ∧
    decodeTableWord 8 0x05 = some (.bankRead 0) ∧
    decodeTableWord 8 0x10 = some (.writeMultipleRegisters 0#8 0#16 0#16 []) ∧
    decodeTableWord 8 0x80 = some (.exceptionResponse 0#8 0#7 0#8 0#8 0#8) ∧
    decodeTableWord 8 0x0A = some (.decodeF64 0 .be) ∧
    decodeTableWord 8 0x0C = none := by decide +kernel

/-- Log 6: the next step runs the placed word, RESULT at Idle, which is refused (R144). -/
theorem test_step_runsFetchedWord :
    after State.reply (step ((idle []).withFetchWord 8 0x04)) = some (.refused .noResult) := by decide +kernel

/-! ### One step of each instruction -/

/-- V1: the empty sequence, and "123456789". -/
theorem test_crc16 :
    after State.reply (Sys2Proof.Machine.exec (.crc16 []) (idle [])) = some (.crc 0xFFFF#16) ∧
    after State.reply (Sys2Proof.Machine.exec (.crc16 [0x31#8, 0x32#8, 0x33#8, 0x34#8, 0x35#8, 0x36#8, 0x37#8, 0x38#8, 0x39#8]) (idle [])) = some (.crc 0x4B37#16) := by decide +kernel

/-- V2: the low byte first, and at least two bytes. -/
theorem test_crcCheck :
    after State.reply (Sys2Proof.Machine.exec (.crcCheck [0x01#8, 0x83#8, 0x02#8, 0xC0#8, 0xF1#8]) (idle [])) = some (.verdict true) ∧
    after State.reply (Sys2Proof.Machine.exec (.crcCheck [0x01#8, 0x83#8, 0x02#8, 0xF1#8, 0xC0#8]) (idle [])) = some (.verdict false) ∧
    after State.reply (Sys2Proof.Machine.exec (.crcCheck [0xFF#8, 0xFF#8]) (idle [])) = some (.verdict true) ∧
    after State.reply (Sys2Proof.Machine.exec (.crcCheck [0xFF#8]) (idle [])) = some (.verdict false) := by decide +kernel

/-- V3: the frame, with neither slave nor code checked. -/
theorem test_build :
    after State.reply (Sys2Proof.Machine.exec (.build 0x00#8 0x2B#8 0x0102#16 0x0304#16 []) (idle [])) = some (.frame [0x00#8, 0x2B#8, 0x01#8, 0x02#8, 0x03#8, 0x04#8, 0x85#8, 0x12#8]) := by decide +kernel

/-- V3: 249 bytes of payload. -/
theorem test_build_overflow :
    after State.reply (Sys2Proof.Machine.exec (.build 0x01#8 0x10#8 0#16 124#16 tooLong) (idle [])) = some (.error .buildOverflow) := by decide +kernel

/-- P1: the frame sent, and the state left. -/
theorem test_exec :
    after State.txf (Sys2Proof.Machine.exec (.exec 0x01#8 0x03#8 0x000E#16 0x0006#16 []) (holding [])) =
      some [0x01#8, 0x03#8, 0x00#8, 0x0E#8, 0x00#8, 0x06#8, 0xA4#8, 0x0B#8] ∧
    after State.phase (Sys2Proof.Machine.exec (.exec 0x01#8 0x03#8 0x000E#16 0x0006#16 []) (holding [])) = some .sending ∧
    after State.status (Sys2Proof.Machine.exec (.exec 0x01#8 0x03#8 0x000E#16 0x0006#16 []) (holding [])) = some none := by decide +kernel

/-- V10: broadcast, slave 248, codes 07 and 83, and while busy. -/
theorem test_exec_refusals :
    after State.reply (Sys2Proof.Machine.exec (.exec 0x00#8 0x03#8 0#16 1#16 []) (idle [])) = some (.refused .slaveAddress) ∧
    after State.reply (Sys2Proof.Machine.exec (.exec 0xF8#8 0x03#8 0#16 1#16 []) (idle [])) = some (.refused .slaveAddress) ∧
    after State.reply (Sys2Proof.Machine.exec (.exec 0x01#8 0x07#8 0#16 1#16 []) (idle [])) = some (.refused .functionCode) ∧
    after State.reply (Sys2Proof.Machine.exec (.exec 0x01#8 0x83#8 0#16 1#16 []) (idle [])) = some (.refused .functionCode) ∧
    after State.reply (Sys2Proof.Machine.exec (.exec 0x01#8 0x03#8 0#16 1#16 []) (header 0x03#8 [] [])) = some (.refused .busy) := by decide +kernel

/-- V6: the request sent. -/
theorem test_readCoils :
    after State.txf (Sys2Proof.Machine.exec (.readCoils 0x01#8 0x0013#16 0x0013#16 []) (idle [])) =
      some [0x01#8, 0x01#8, 0x00#8, 0x13#8, 0x00#8, 0x13#8, 0x8C#8, 0x02#8] := by decide +kernel

/-- V6: the request sent. -/
theorem test_readDiscreteInputs :
    after State.txf (Sys2Proof.Machine.exec (.readDiscreteInputs 0x01#8 0x00C4#16 0x0016#16 []) (idle [])) =
      some [0x01#8, 0x02#8, 0x00#8, 0xC4#8, 0x00#8, 0x16#8, 0xB8#8, 0x39#8] := by decide +kernel

/-- V6: the request sent. -/
theorem test_readHoldingRegisters :
    after State.txf (Sys2Proof.Machine.exec (.readHoldingRegisters 0x01#8 0x006B#16 0x0003#16 []) (idle [])) =
      some [0x01#8, 0x03#8, 0x00#8, 0x6B#8, 0x00#8, 0x03#8, 0x74#8, 0x17#8] := by decide +kernel

/-- V6: the request sent. -/
theorem test_readInputRegisters :
    after State.txf (Sys2Proof.Machine.exec (.readInputRegisters 0x01#8 0x0008#16 0x0001#16 []) (idle [])) =
      some [0x01#8, 0x04#8, 0x00#8, 0x08#8, 0x00#8, 0x01#8, 0xB0#8, 0x08#8] := by decide +kernel

/-- V6: the request sent. -/
theorem test_writeSingleCoil :
    after State.txf (Sys2Proof.Machine.exec (.writeSingleCoil 0x01#8 0x00AC#16 0xFF00#16 []) (idle [])) =
      some [0x01#8, 0x05#8, 0x00#8, 0xAC#8, 0xFF#8, 0x00#8, 0x4C#8, 0x1B#8] := by decide +kernel

/-- V6: the request sent. -/
theorem test_writeSingleRegister :
    after State.txf (Sys2Proof.Machine.exec (.writeSingleRegister 0x01#8 0x0001#16 0x0003#16 []) (idle [])) =
      some [0x01#8, 0x06#8, 0x00#8, 0x01#8, 0x00#8, 0x03#8, 0x98#8, 0x0B#8] := by decide +kernel

/-- V6: the request sent. -/
theorem test_writeMultipleCoils :
    after State.txf (Sys2Proof.Machine.exec (.writeMultipleCoils 0x01#8 0x0013#16 0x000A#16 [0x02#8, 0xCD#8, 0x01#8]) (idle [])) =
      some [0x01#8, 0x0F#8, 0x00#8, 0x13#8, 0x00#8, 0x0A#8, 0x02#8, 0xCD#8, 0x01#8, 0x72#8, 0xCB#8] := by decide +kernel

/-- V6: the request sent. -/
theorem test_writeMultipleRegisters :
    after State.txf (Sys2Proof.Machine.exec (.writeMultipleRegisters 0x01#8 0x0001#16 0x0002#16 [0x04#8, 0x00#8, 0x0A#8, 0x01#8, 0x02#8]) (idle [])) =
      some [0x01#8, 0x10#8, 0x00#8, 0x01#8, 0x00#8, 0x02#8, 0x04#8, 0x00#8, 0x0A#8, 0x01#8, 0x02#8, 0x92#8, 0x30#8] := by decide +kernel

/-- V6: the request sent. -/
theorem test_maskWriteRegister :
    after State.txf (Sys2Proof.Machine.exec (.maskWriteRegister 0x01#8 0x0004#16 0x00F2#16 [0x00#8, 0x25#8]) (idle [])) =
      some [0x01#8, 0x16#8, 0x00#8, 0x04#8, 0x00#8, 0xF2#8, 0x00#8, 0x25#8, 0x67#8, 0xEE#8] := by decide +kernel

/-- V6: the request sent. -/
theorem test_readWriteMultipleRegisters :
    after State.txf (Sys2Proof.Machine.exec (.readWriteMultipleRegisters 0x01#8 0x0003#16 0x0006#16
      [0x00#8, 0x0E#8, 0x00#8, 0x03#8, 0x06#8, 0x00#8, 0xFF#8, 0x00#8, 0xFF#8, 0x00#8, 0xFF#8]) (idle [])) =
      some [0x01#8, 0x17#8, 0x00#8, 0x03#8, 0x00#8, 0x06#8, 0x00#8, 0x0E#8, 0x00#8, 0x03#8, 0x06#8, 0x00#8, 0xFF#8, 0x00#8, 0xFF#8, 0x00#8, 0xFF#8, 0x46#8, 0x91#8] := by decide +kernel

/-- R4, R139: one byte is delivered, and the other four and the five polls come next. -/
theorem test_exceptionResponse :
    after State.pending (Sys2Proof.Machine.exec (.exceptionResponse 0x01#8 0x03#7 0x02#8 0xC0#8 0xF1#8) (header 0x03#8 [] [])) = some [0x01#8] ∧
    after State.schedule (Sys2Proof.Machine.exec (.exceptionResponse 0x01#8 0x03#7 0x02#8 0xC0#8 0xF1#8) (header 0x03#8 [] [])) =
      some [.arrive 0x83#8, .arrive 0x02#8, .arrive 0xC0#8, .arrive 0xF1#8, .engine, .engine, .engine, .engine, .engine] := by decide +kernel

/-- R137: at Idle only the bytes come. -/
theorem test_exceptionResponse_idle :
    after State.schedule (Sys2Proof.Machine.exec (.exceptionResponse 0x01#8 0x03#7 0x02#8 0xC0#8 0xF1#8) (idle [])) =
      some [.arrive 0x83#8, .arrive 0x02#8, .arrive 0xC0#8, .arrive 0xF1#8] := by decide +kernel

/-- P6, P3: the code of a status. -/
theorem test_result :
    after State.reply (Sys2Proof.Machine.exec (.result) ({ holding [] with status := some .invalidCrc })) = some (.result .invalidCrc 0xE3#8 0) ∧
    after State.reply (Sys2Proof.Machine.exec (.result) (holding [0xFF05#16, 0x0001#16])) = some (.result .success 0x00#8 2) := by decide +kernel

/-- V10: at Idle, and while busy. -/
theorem test_result_refused :
    after State.reply (Sys2Proof.Machine.exec (.result) (idle [])) = some (.refused .noResult) ∧
    after State.reply (Sys2Proof.Machine.exec (.result) (sending .tx [])) = some (.refused .busy) := by decide +kernel

/-- V8: the last register, and the first past the end. -/
theorem test_bankRead :
    after State.reply (Sys2Proof.Machine.exec (.bankRead 1) (holding [0xFF05#16, 0x0001#16])) = some (.register 0x0001#16) ∧
    after State.reply (Sys2Proof.Machine.exec (.bankRead 2) (holding [0xFF05#16, 0x0001#16])) = some (.error .decodeOutOfRange) ∧
    after State.reply (Sys2Proof.Machine.exec (.bankRead 0) (idle [])) = some (.error .decodeOutOfRange) := by decide +kernel

/-- V9: U32 in LES, and the reserved descriptors. -/
theorem test_decode :
    after State.reply (Sys2Proof.Machine.exec (.decode 0 0x31#8) (holding [0x4048#16, 0xF5C3#16])) = some (.number (.unsigned 3287631936)) ∧
    after State.reply (Sys2Proof.Machine.exec (.decode 0 0x0C#8) (holding [0x4048#16, 0xF5C3#16])) = some (.refused .reservedDescriptor) ∧
    after State.reply (Sys2Proof.Machine.exec (.decode 0 0x80#8) (holding [0x4048#16, 0xF5C3#16])) = some (.refused .reservedDescriptor) := by decide +kernel

/-- V9: 0 + 4 > 2. -/
theorem test_decode_range :
    after State.reply (Sys2Proof.Machine.exec (.decode 0 0x02#8) (holding [0x4048#16, 0xF5C3#16])) = some (.error .decodeOutOfRange) := by decide +kernel

/-- R71: refused, and the mark is set. -/
theorem test_reservedOp7 :
    after State.reply (Sys2Proof.Machine.exec (.reservedOp7) (idle [])) = some (.refused .reservedSelector) ∧
    after State.refused (Sys2Proof.Machine.exec (.reservedOp7) (idle [])) = some true := by decide +kernel

/-- V9: the byte swap. -/
theorem test_decodeU16 :
    after State.reply (Sys2Proof.Machine.exec (.decodeU16 1 .le) (holding [0x4048#16, 0xF5C3#16])) = some (.number (.unsigned 62915)) ∧
    after State.reply (Sys2Proof.Machine.exec (.decodeU16 1 .leSwapped) (holding [0x4048#16, 0xF5C3#16])) = some (.number (.unsigned 50165)) := by decide +kernel

/-- V9: 2 + 1 > 2. -/
theorem test_decodeU16_range :
    after State.reply (Sys2Proof.Machine.exec (.decodeU16 2 .be) (holding [0x4048#16, 0xF5C3#16])) = some (.error .decodeOutOfRange) := by decide +kernel

/-- V9: the sign, from either byte. -/
theorem test_decodeS16 :
    after State.reply (Sys2Proof.Machine.exec (.decodeS16 1 .be) (holding [0x4048#16, 0xF5C3#16])) = some (.number (.signed (-2621))) ∧
    after State.reply (Sys2Proof.Machine.exec (.decodeS16 0 .beSwapped) (holding [0x0080#16])) = some (.number (.signed (-32768))) := by decide +kernel

/-- V9: the four orders. -/
theorem test_decodeU32 :
    after State.reply (Sys2Proof.Machine.exec (.decodeU32 0 .be) (holding [0x4048#16, 0xF5C3#16])) = some (.number (.unsigned 1078523331)) ∧
    after State.reply (Sys2Proof.Machine.exec (.decodeU32 0 .le) (holding [0x4048#16, 0xF5C3#16])) = some (.number (.unsigned 4123213896)) ∧
    after State.reply (Sys2Proof.Machine.exec (.decodeU32 0 .beSwapped) (holding [0x4048#16, 0xF5C3#16])) = some (.number (.unsigned 1212204021)) ∧
    after State.reply (Sys2Proof.Machine.exec (.decodeU32 0 .leSwapped) (holding [0x4048#16, 0xF5C3#16])) = some (.number (.unsigned 3287631936)) := by decide +kernel

/-- V9: two orders. -/
theorem test_decodeS32 :
    after State.reply (Sys2Proof.Machine.exec (.decodeS32 0 .le) (holding [0x4048#16, 0xF5C3#16])) = some (.number (.signed (-171753400))) ∧
    after State.reply (Sys2Proof.Machine.exec (.decodeS32 0 .leSwapped) (holding [0x4048#16, 0xF5C3#16])) = some (.number (.signed (-1007335360))) := by decide +kernel

/-- V9: three orders. -/
theorem test_decodeU64 :
    after State.reply (Sys2Proof.Machine.exec (.decodeU64 0 .le) (holding [0x0102#16, 0x0304#16, 0x0506#16, 0x0708#16])) = some (.number (.unsigned 0x0708050603040102)) ∧
    after State.reply (Sys2Proof.Machine.exec (.decodeU64 0 .beSwapped) (holding [0x0102#16, 0x0304#16, 0x0506#16, 0x0708#16])) = some (.number (.unsigned 0x0201040306050807)) ∧
    after State.reply (Sys2Proof.Machine.exec (.decodeU64 0 .leSwapped) (holding [0x0102#16, 0x0304#16, 0x0506#16, 0x0708#16])) = some (.number (.unsigned 0x0807060504030201)) := by decide +kernel

/-- V9: bank C. -/
theorem test_decodeS64 :
    after State.reply (Sys2Proof.Machine.exec (.decodeS64 0 .be) (holding [0xFFFF#16, 0xFFFF#16, 0xFFFF#16, 0xFF85#16])) = some (.number (.signed (-123))) ∧
    after State.reply (Sys2Proof.Machine.exec (.decodeS64 0 .le) (holding [0xFFFF#16, 0xFFFF#16, 0xFFFF#16, 0xFF85#16])) = some (.number (.signed (-34339947158700033))) := by decide +kernel

/-- V9: 13170115 * 2^-22 is 3.1400001049041748046875, and -0.0 keeps its sign. -/
theorem test_decodeF32 :
    after State.reply (Sys2Proof.Machine.exec (.decodeF32 0 .be) (holding [0x4048#16, 0xF5C3#16])) = some (.number (.binary32 (.finite false 13170115 (-22)))) ∧
    after State.reply (Sys2Proof.Machine.exec (.decodeF32 0 .be) (holding [0x8000#16, 0x0000#16])) = some (.number (.binary32 (.finite true 0 (-149)))) := by decide +kernel

/-- V9: 2^-149, -infinity, and a NaN with its payload. -/
theorem test_decodeF32_corners :
    after State.reply (Sys2Proof.Machine.exec (.decodeF32 0 .be) (holding [0x0000#16, 0x0001#16])) = some (.number (.binary32 (.finite false 1 (-149)))) ∧
    after State.reply (Sys2Proof.Machine.exec (.decodeF32 0 .be) (holding [0xFF80#16, 0x0000#16])) = some (.number (.binary32 (.infinity true))) ∧
    after State.reply (Sys2Proof.Machine.exec (.decodeF32 0 .be) (holding [0x7FC0#16, 0x0001#16])) = some (.number (.binary32 (.nan false 0x400001))) := by decide +kernel

/-- V9: 7074237752028440 * 2^-51 is the double nearest pi, and 2^-1074. -/
theorem test_decodeF64 :
    after State.reply (Sys2Proof.Machine.exec (.decodeF64 0 .be) (holding [0x4009#16, 0x21FB#16, 0x5444#16, 0x2D18#16])) = some (.number (.binary64 (.finite false 7074237752028440 (-51)))) ∧
    after State.reply (Sys2Proof.Machine.exec (.decodeF64 0 .be) (holding [0x0000#16, 0x0000#16, 0x0000#16, 0x0001#16])) = some (.number (.binary64 (.finite false 1 (-1074)))) := by decide +kernel

/-- R190: refused at Idle and at Done. -/
theorem test_decodeF16Reserved :
    after State.reply (Sys2Proof.Machine.exec (.decodeF16Reserved 0 .be) (idle [])) = some (.refused .reservedDescriptor) ∧
    after State.reply (Sys2Proof.Machine.exec (.decodeF16Reserved 0 .leSwapped) (holding [0x4048#16, 0xF5C3#16])) = some (.refused .reservedDescriptor) := by decide +kernel

/-! ### One turn of the engine -/

/-- R125, P9: the byte is discarded; at the bound the hook is next, without a read. -/
theorem test_drain :
    after State.drainCount (engineStep (sending .drain [0xAA#8])) = some (1) ∧
    after State.events (engineStep { sending .drain [0xAA#8] with drainCount := 4 }) = some [] ∧
    after State.sendStep (engineStep { sending .drain [0xAA#8] with drainCount := 4 }) = some .preHook := by decide +kernel

/-- R126. -/
theorem test_preHook :
    after State.events (engineStep (sending .preHook [])) = some ([.pre]) ∧
    after State.sendStep (engineStep (sending .preHook [])) = some (.tx) := by decide +kernel

/-- R127: the last byte's step goes on to Flush. -/
theorem test_tx :
    after State.sent (engineStep (sending .tx [])) = some ([0x01#8]) ∧
    after State.sendStep (engineStep (sending .tx [])) = some (.tx) ∧
    after State.sendStep (engineStep { sending .tx [] with txIdx := 7 }) = some .flush := by decide +kernel

/-- R130: holds below settle_ticks, then clears the timer. -/
theorem test_settle :
    after State.phase (engineStep { sending .settle [] with timer := 1 }) = some .sending ∧
    after State.phase (engineStep { sending .settle [] with timer := 2 }) = some .awaitingHeader ∧
    after State.timer (engineStep { sending .settle [] with timer := 2 }) = some 0 := by decide +kernel

/-- R131, P3: at the deadline no read is made. -/
theorem test_poll_deadline :
    after State.status (engineStep { header 0x04#8 [] [0x01#8] with timer := 5 }) = some (some .responseTimeout) ∧
    after State.pending (engineStep { header 0x04#8 [] [0x01#8] with timer := 5 }) = some [0x01#8] := by decide +kernel

/-- V4: the length at the fifth byte; P9's stale slave. -/
theorem test_poll_header :
    after State.expected (engineStep (header 0x03#8 [0x01#8, 0x03#8, 0x0C#8, 0x43#8] [0x5C#8])) = some (some 17) ∧
    after State.expected (engineStep (header 0x16#8 [0x01#8, 0x16#8, 0x00#8, 0x04#8] [0x00#8])) = some (some 10) ∧
    after State.status (engineStep (header 0x03#8 [0x00#8, 0x20#8, 0x01#8, 0x03#8] [0x02#8])) = some (some .invalidSlaveId) := by decide +kernel

/-- E7, E9: the code is the status's, even 0x00, and no CRC is looked at (E8). -/
theorem test_poll_exception :
    after State.status (engineStep (header 0x03#8 [0x01#8, 0x83#8, 0x02#8, 0xC0#8] [0xF1#8])) = some (some (.modbusException 0x02#8)) ∧
    after State.status (engineStep (header 0x03#8 [0x01#8, 0x83#8, 0x00#8, 0x00#8] [0x00#8])) = some (some (.modbusException 0x00#8)) := by decide +kernel

/-- R133: the slave is tested before the function, the function before the exception bit. -/
theorem test_poll_order :
    after State.status (engineStep (header 0x03#8 [0x02#8, 0x84#8, 0x02#8, 0x00#8] [0x00#8])) = some (some .invalidSlaveId) ∧
    after State.status (engineStep (header 0x03#8 [0x01#8, 0x84#8, 0x02#8, 0x00#8] [0x00#8])) = some (some .invalidFunction) := by decide +kernel

/-- E3: a byte count of 0 completes at the fifth byte. -/
theorem test_poll_noData :
    after State.status (engineStep (header 0x03#8 [0x01#8, 0x03#8, 0x00#8, 0x20#8] [0xF0#8])) = some (some .success) := by decide +kernel

/-- E1 and E2: the last byte, right and wrong. -/
theorem test_poll_complete :
    after State.status (engineStep (body 0x03#8 11 [0x01#8, 0x03#8, 0x06#8, 0x02#8, 0x2B#8, 0x00#8, 0x00#8, 0x00#8, 0x64#8, 0x05#8] [0x7A#8])) = some (some .success) ∧
    after State.bankLen (engineStep (body 0x03#8 11 [0x01#8, 0x03#8, 0x06#8, 0x02#8, 0x2B#8, 0x00#8, 0x00#8, 0x00#8, 0x64#8, 0x05#8] [0x7A#8])) = some 3 ∧
    after State.status (engineStep (body 0x03#8 11 [0x01#8, 0x03#8, 0x06#8, 0x02#8, 0x2B#8, 0x00#8, 0x00#8, 0x00#8, 0x64#8, 0x05#8] [0x7B#8])) = some (some .invalidCrc) := by decide +kernel

/-- V7: both packings of odd payloads. -/
theorem test_disassembly :
    disasmBits [0x05#8, 0xFF#8, 0x01#8] = [0xFF05#16, 0x0001#16] ∧
    disasmWords [0x12#8, 0x34#8, 0x56#8] = [0x1234#16] := by decide +kernel

/-- R38, R220: pending stays. -/
theorem test_reset :
    after State.pending (takeTurn (.reset cfg0) (sending .tx [0xAA#8])) = some [0xAA#8] ∧
    after State.phase (takeTurn (.reset cfg0) (sending .tx [0xAA#8])) = some .idle := by decide +kernel

/-! ### Witnesses: states and operands that meet an obligation's hypotheses -/

/-- O1. -/
theorem witness_DecodeOfEncode :
    (Instr.crc16 tooLong).wellFormed = true ∧ (Instr.readCoils 0xFF#8 0xFFFF#16 0xFFFF#16 tooLong.tail).wellFormed = true ∧
    (Instr.exceptionResponse 0xFF#8 0x7F#7 0xFF#8 0#8 0#8).wellFormed = true ∧
    (Instr.decodeF64 1000 .leSwapped).wellFormed = true := by decide +kernel

/-- O2, each format. -/
theorem witness_EncodeOfDecode :
    decode ⟨.cmd, [0x05#8, 0xE8#8, 0x07#8]⟩ = .ok (.bankRead 1000) ∧
    decode ⟨.aduRequest, [0x01#8, 0x03#8, 0x00#8, 0x0E#8, 0x00#8, 0x06#8, 0xA4#8, 0x0B#8]⟩ =
      .ok (.readHoldingRegisters 0x01#8 0x000E#16 0x0006#16 []) ∧
    decode ⟨.aduResponse, [0x01#8, 0x83#8, 0x02#8, 0xC0#8, 0xF1#8]⟩ =
      .ok (.exceptionResponse 0x01#8 0x03#7 0x02#8 0xC0#8 0xF1#8) ∧
    decode ⟨.enc, [0x3A#8, 0x00#8]⟩ = .ok (.decodeF64 0 .leSwapped) := by decide +kernel

/-- O4, clause by clause. -/
theorem witness_StepTakesTheScheduledTurn :
    decode ⟨.cmd, [0x04#8]⟩ = .ok .result ∧ decode ⟨.cmd, []⟩ = .error .empty ∧
    ∀ u : Turn, (comeNext [u, .tick] (idle [])).schedule = u :: [.tick] :=
  ⟨rfl, rfl, fun _ => rfl⟩

/-- O6: the longest frame that is too short. -/
theorem witness_CrcCheck : [0xFF#8].length < 2 := by decide

/-- O7: the longest payload that fits, and one byte more. -/
theorem witness_Build : tooLong.tail.length ≤ 248 ∧ 248 < tooLong.length := by decide +kernel

/-- O8. -/
theorem witness_BuiltFrames : buildFrame 0x01#8 0x03#8 0x000E#16 0x0006#16 [] =
    some [0x01#8, 0x03#8, 0x00#8, 0x0E#8, 0x00#8, 0x06#8, 0xA4#8, 0x0B#8] := by decide +kernel

/-- O9 and O10: the last bit of the shortest checked frame. -/
theorem witness_FlippingOneBit :
    crcCheck [0xFF#8, 0xFF#8] = true ∧ [0xFF#8, 0xFF#8][1]? = some 0xFF#8 ∧ 7 < 8 ∧ 2 ≤ [0xFF#8, 0xFF#8].length := by
  decide +kernel

/-- O11 and O12: every asker, the boundary slaves, a payload that fits and one that does not, from both phases. -/
theorem witness_RequestStarts :
    AsksFor (.exec 0x01#8 0x17#8 0#16 0#16 tooLong.tail) 0x01#8 0x17#8 0#16 0#16 tooLong.tail ∧
    AsksFor (.readWriteMultipleRegisters 0xF7#8 0#16 0#16 tooLong) 0xF7#8 0x17#8 0#16 0#16 tooLong ∧
    InFcSet 0x17#8 ∧ InSlaveRange 0x01#8 ∧ InSlaveRange 0xF7#8 ∧ tooLong.tail.length ≤ 248 ∧ 248 < tooLong.length ∧
    (idle []).phase = .idle ∧ (holding []).phase = .done := by
  refine ⟨.inl rfl, ?_, by simp [InFcSet], by simp [InSlaveRange],
    by simp [InSlaveRange], ?_, ?_, rfl, rfl⟩
  · simp [AsksFor]
  · decide +kernel
  · decide +kernel

/-- O13: busy, an unlisted code, and the slaves on both sides of the range. -/
theorem witness_RefusedRequest :
    AsksFor (.readCoils 0x01#8 0#16 0#16 []) 0x01#8 0x01#8 0#16 0#16 [] ∧
    AsksFor (.exec 0xF8#8 0x01#8 0#16 0#16 []) 0xF8#8 0x01#8 0#16 0#16 [] ∧
    (sending .drain []).phase = .sending ∧ (header 0x03#8 [] []).phase = .awaitingHeader ∧
    (body 0x03#8 7 [] []).phase = .awaitingBody ∧ (idle []).phase = .idle ∧
    ¬ InFcSet 0x07#8 ∧ InFcSet 0x01#8 ∧ ¬ InSlaveRange 0x00#8 ∧ ¬ InSlaveRange 0xF8#8 := by
  refine ⟨by simp [AsksFor], .inl rfl, rfl, rfl, rfl, rfl, by simp [InFcSet], by simp [InFcSet], ?_, ?_⟩ <;>
    simp [InSlaveRange]

/-- O14 and O15: a busy phase, the two others, and each kind of reserved descriptor. -/
theorem witness_RefusedReaders :
    (sending .drain []).phase = .sending ∧ (idle []).phase = .idle ∧ (holding []).phase = .done ∧
    DecodesAs (.decode 0 0x3A#8) .f64 0 .leSwapped ∧ DecodesAs (.decodeS16 0 .be) .s16 0 .be ∧
    (0x40#8 : Byte).extractLsb' 6 2 ≠ 0#2 ∧ (0x03#8 : Byte).extractLsb' 0 2 = 3#2 ∧
    (0x0C#8 : Byte).extractLsb' 2 2 = 3#2 ∧ (0x38#8 : Byte) &&& 0x0F#8 = 0x08#8 := by
  refine ⟨rfl, rfl, rfl, .inl rfl, by simp [DecodesAs], ?_⟩
  decide +kernel

/-- O16. -/
theorem witness_Result : (holding []).phase = .done ∧ (holding []).status = some .success := ⟨rfl, rfl⟩

/-- O17: the last register of a full bank, and the first index past a shorter one. -/
theorem witness_BankRead :
    127 < bankCap ∧ (holding (List.replicate 128 0#16)).phase = .done ∧ 127 < (holding (List.replicate 128 0#16)).bankLen ∧
    (holding [0#16]).phase = .done ∧ (holding [0#16]).bankLen ≤ 1 := by decide +kernel

/-- O18 to O20, and O23: the last start in range for each width, and the first out of it. -/
theorem witness_Decodes :
    DecodesAs (.decodeU16 3 .be) .u16 3 .be ∧ DecodesAs (.decodeS32 2 .le) .s32 2 .le ∧
    DecodesAs (.decode 0 0x0A#8) .f64 0 .be ∧ DecodesAs (.decodeU64 1 .be) .u64 1 .be ∧
    (holding [1#16, 2#16, 3#16, 4#16]).phase = .done ∧ (holding [1#16, 2#16, 3#16, 4#16]).bankLen = 4 ∧
    4 ≤ bankCap ∧ 3 < 4 ∧ 2 + 2 ≤ 4 ∧ 0 + 4 ≤ 4 ∧ 4 < 1 + 4 := by
  refine ⟨by simp [DecodesAs], by simp [DecodesAs], .inl rfl, by simp [DecodesAs], rfl, rfl, ?_⟩
  decide

/-- O22: two patterns of one datum are one pattern. -/
theorem witness_FloatReinterpretation :
    f32OfBits 0x7FC00001#32 = f32OfBits 0x7FC00001#32 ∧ f64OfBits 0x1#64 = f64OfBits 0x1#64 := ⟨rfl, rfl⟩

/-- O23: two states that agree on the two registers of the decode and on nothing else of the bank. -/
theorem witness_DecodeDepends :
    DecodesAs (.decodeU32 0 .be) .u32 0 .be ∧
    (holding [1#16, 2#16, 3#16]).bankLen = (holding [1#16, 2#16, 4#16]).bankLen ∧
    (∀ k, k < typeRegs .u32 → bankReg (holding [1#16, 2#16, 3#16]) (0 + k) = bankReg (holding [1#16, 2#16, 4#16]) (0 + k)) := by
  refine ⟨by simp [DecodesAs], rfl, ?_⟩
  decide +kernel

/-- O24. -/
theorem witness_ReadingCommands : ∃ t, Sys2Proof.Machine.exec (.bankRead 1) (holding [1#16]) = .next t := ⟨_, rfl⟩

/-- O25: the bound, the empty queue and the byte. -/
theorem witness_Drain :
    (sending .drain []).phase = .sending ∧ (sending .drain []).sendStep = .drain ∧
    { sending .drain [] with drainCount := 4 }.drainCount = (sending .drain []).cfg.drainMax ∧
    (sending .drain []).drainCount ≠ (sending .drain []).cfg.drainMax ∧ (sending .drain []).pending = [] ∧
    (sending .drain [0xAA#8]).pending = 0xAA#8 :: [] := by decide +kernel

/-- O26 and O28: each sub-state, the timer at its last hold and at its end. -/
theorem witness_SendSteps :
    (sending .preHook []).sendStep = .preHook ∧ (sending .flush []).sendStep = .flush ∧
    (sending .postHook []).sendStep = .postHook ∧ (sending .settle []).sendStep = .settle ∧
    (sending .settle []).phase = .sending ∧ 1 < (sending .settle []).cfg.settleTicks ∧
    (sending .settle []).cfg.settleTicks ≤ 2 := by decide +kernel

/-- O27: the first index and the last. -/
theorem witness_Tx :
    (sending .tx []).phase = .sending ∧ (sending .tx []).sendStep = .tx ∧ (sending .tx []).txf[0]? = some 0x01#8 ∧
    (sending .tx []).txf[7]? = some 0x0B#8 ∧ 7 < (sending .tx []).txf.length := by decide +kernel

/-- O29: at the deadline, one tick before it with nothing pending, and with a byte in each receiving phase. -/
theorem witness_Poll :
    receiving { header 0x03#8 [] [] with timer := 5 } = true ∧ (header 0x03#8 [] []).cfg.deadlineTicks ≤ 5 ∧
    4 < (header 0x03#8 [] []).cfg.deadlineTicks ∧ (header 0x03#8 [] []).pending = [] ∧
    (header 0x03#8 [0x01#8, 0x03#8, 0x02#8] [0x12#8]).rxLen < 4 ∧
    (body 0x03#8 260 [0x01#8] [0x12#8]).expected ≠ some ((body 0x03#8 260 [0x01#8] [0x12#8]).rxLen + 1) ∧
    (body 0x03#8 260 [0x01#8] [0x12#8]).pending = 0x12#8 :: [] ∧ (body 0x03#8 260 [0x01#8] [0x12#8]).rxLen < rxCap := by
  decide +kernel

/-- A poll before the deadline about to read the fifth byte. -/
abbrev FifthByte (s : State) (b : Byte) : Prop :=
  s.phase = .awaitingHeader ∧ s.rxLen = 4 ∧ s.timer < s.cfg.deadlineTicks ∧ s.pending = [b]

/-- O30: the slave differs, the function differs, the exception bit. -/
theorem witness_HeaderCheck_fails :
    (let s := header 0x03#8 [0x02#8, 0x03#8, 0x02#8, 0x00#8] [0x01#8]
     FifthByte s 0x01#8 ∧ rxByte s 0 ≠ s.reqSlave) ∧
    (let s := header 0x03#8 [0x01#8, 0x04#8, 0x02#8, 0x00#8] [0x0A#8]
     FifthByte s 0x0A#8 ∧ rxByte s 0 = s.reqSlave ∧ rxByte s 1 &&& 0x7F#8 ≠ s.reqFc) ∧
    (let s := header 0x03#8 [0x01#8, 0x83#8, 0x02#8, 0xC0#8] [0xF1#8]
     FifthByte s 0xF1#8 ∧ rxByte s 0 = s.reqSlave ∧ rxByte s 1 &&& 0x7F#8 = s.reqFc ∧
       (rxByte s 1).getLsbD 7 = true) := by decide +kernel

/-- A poll about to read a fifth byte, after a header that passes. -/
abbrev GoodHeader (s : State) (b : Byte) : Prop :=
  FifthByte s b ∧ rxByte s 0 = s.reqSlave ∧ rxByte s 1 = s.reqFc ∧ (rxByte s 1).getLsbD 7 = false

/-- O30: a read of the largest byte count and of none, a plain write, the mask write. -/
theorem witness_HeaderCheck_passes :
    (let s := header 0x17#8 [0x01#8, 0x17#8, 0xFF#8, 0x00#8] [0x01#8]
     GoodHeader s 0x01#8 ∧ IsWordRead s.reqFc ∧ rxByte s 2 ≠ 0#8) ∧
    (let s := header 0x03#8 [0x01#8, 0x03#8, 0x00#8, 0x20#8] [0xF0#8]
     GoodHeader s 0xF0#8 ∧ IsWordRead s.reqFc ∧ rxByte s 2 = 0#8) ∧
    (let s := header 0x10#8 [0x01#8, 0x10#8, 0x00#8, 0x01#8] [0x00#8]
     GoodHeader s 0x00#8 ∧ IsPlainWrite s.reqFc) ∧
    (let s := header 0x16#8 [0x01#8, 0x16#8, 0x00#8, 0x04#8] [0x00#8]
     GoodHeader s 0x00#8 ∧ IsMaskWrite s.reqFc) := by
  unfold IsWordRead IsPlainWrite IsMaskWrite
  decide +kernel

/-- A poll before the deadline about to read the last byte. -/
abbrev LastByte (s : State) (b : Byte) : Prop :=
  s.phase = .awaitingBody ∧ s.rxLen < rxCap ∧ s.expected = some (s.rxLen + 1) ∧ s.timer < s.cfg.deadlineTicks ∧
    s.pending = [b]

/-- O31: the last byte of vector E3's read and of E13's write, right. -/
theorem witness_CompletingPoll_good :
    (let s := body 0x03#8 5 [0x01#8, 0x03#8, 0x00#8, 0x20#8] [0xF0#8]
     LastByte s 0xF0#8 ∧ rxBytes s ++ [0xF0#8] = withWireCrc [0x01#8, 0x03#8, 0x00#8] ∧ IsWordRead s.reqFc) ∧
    (let s := body 0x05#8 8 [0x01#8, 0x05#8, 0x00#8, 0xAC#8, 0xFF#8, 0x00#8, 0x4C#8] [0x1B#8]
     LastByte s 0x1B#8 ∧ rxBytes s ++ [0x1B#8] = withWireCrc [0x01#8, 0x05#8, 0x00#8, 0xAC#8, 0xFF#8, 0x00#8] ∧
       IsPlainWrite s.reqFc) := by
  unfold IsWordRead IsPlainWrite
  decide +kernel

/-- O31: the last byte of vector E3's frame, wrong. -/
theorem witness_CompletingPoll_bad :
    LastByte (body 0x03#8 5 [0x01#8, 0x03#8, 0x00#8, 0x20#8] [0xF1#8]) 0xF1#8 ∧
    ∀ b, rxBytes (body 0x03#8 5 [0x01#8, 0x03#8, 0x00#8, 0x20#8] [0xF1#8]) ++ [0xF1#8] ≠ withWireCrc b := by
  refine ⟨by decide +kernel, fun b h => ?_⟩
  have hs : rxBytes (body 0x03#8 5 [0x01#8, 0x03#8, 0x00#8, 0x20#8] [0xF1#8]) ++ [0xF1#8] =
      [0x01#8, 0x03#8, 0x00#8] ++ [0x20#8, 0xF1#8] := by decide +kernel
  rw [hs] at h
  obtain ⟨rfl, h2⟩ := List.append_inj' h rfl
  revert h2
  decide +kernel

/-- O32 and O33: the full payload of 255 bytes, with a last pair and a trailing odd byte, in both packings, and a write. -/
theorem witness_Disassembly :
    (let s := header 0x01#8 [0x01#8, 0x01#8, 0xFF#8] []
     IsBitRead s.reqFc ∧ (rxByte s 2).toNat = 255 ∧ 2 * 126 + 1 < 255 ∧ 2 * 127 + 1 = 255 ∧ (255 + 1) / 2 ≤ 128) ∧
    (let s := header 0x03#8 [0x01#8, 0x03#8, 0xFF#8] []
     IsWordRead s.reqFc ∧ (rxByte s 2).toNat = 255 ∧ 2 * 126 + 1 < 255 ∧ 255 / 2 ≤ 127) ∧
    IsMaskWrite (header 0x16#8 [] []).reqFc := by
  unfold IsBitRead IsWordRead IsMaskWrite
  decide +kernel

/-- O34, O35: the phases, and the state the row leads to. -/
theorem witness_ExceptionResponse :
    (idle []).phase = .idle ∧ (holding []).phase = .done ∧ (sending .tx []).phase = .sending ∧
    (header 0x03#8 [] []).phase = .awaitingHeader ∧ (header 0x03#8 [] []).rxLen = 0 ∧ (header 0x03#8 [] []).pending = [] ∧
    (header 0x03#8 [] []).timer < (header 0x03#8 [] []).cfg.deadlineTicks ∧
    receiving (body 0x03#8 7 [0x01#8, 0x03#8] [0x02#8]) = true ∧
    after State.pending (Sys2Proof.Machine.exec (.exceptionResponse 0x01#8 0x03#7 0x02#8 0#8 0#8)
      (body 0x03#8 7 [0x01#8, 0x03#8] [0x02#8])) = some [0x02#8, 0x01#8] := by decide +kernel

/-- O36 and O37: a drain, a poll, and a step that reads nothing. -/
theorem witness_EngineReads :
    (∃ t, engineStep (sending .drain [0xAA#8]) = .next t) ∧ (∃ t, engineStep (header 0x03#8 [] [0x01#8]) = .next t) ∧
    (∃ t, engineStep (sending .tx []) = .next t) ∧ (sending .tx []).sendStep ≠ .drain ∧ receiving (sending .tx []) = false :=
  ⟨⟨_, rfl⟩, ⟨_, rfl⟩, ⟨_, rfl⟩, by decide, rfl⟩

/-- O38: the last poll of vector E16's read, for slave 1, changes the bank. -/
theorem witness_BankWrite :
    after (fun t => decide (t.bank ≠ (body 0x03#8 7 [0x01#8, 0x03#8, 0x02#8, 0x12#8, 0x34#8, 0xB5#8] [0x33#8]).bank))
      (takeTurn .engine (body 0x03#8 7 [0x01#8, 0x03#8, 0x02#8, 0x12#8, 0x34#8, 0xB5#8] [0x33#8])) = some true := by
  decide +kernel

/-- O39: a request while busy. -/
theorem witness_InFlight :
    busy (sending .tx []) = true ∧
    ∃ t, takeTurn (.command ⟨.cmd, [0x03#8, 0x02#8, 0x04#8, 0#8, 0#8, 0#8, 0#8, 0#8]⟩) (sending .tx []) = .next t :=
  ⟨rfl, _, rfl⟩

/-- O40: a request, a poll and an overflowing request change the phase, and the last two end the transaction. -/
theorem witness_PhaseChanges :
    after State.phase (Sys2Proof.Machine.exec (.exec 0x01#8 0x03#8 0#16 1#16 []) (idle [])) = some .sending ∧
    after State.phase (takeTurn .engine { header 0x03#8 [] [] with timer := 5 }) = some .done ∧
    after State.phase (Sys2Proof.Machine.exec (.exec 0x01#8 0x10#8 0#16 124#16 tooLong) (idle [])) = some .done := by
  decide +kernel

/-- O41: the mark set, and a turn that sets it. -/
theorem witness_RefusedMark :
    (∃ t, takeTurn .tick { idle [] with refused := true } = .next t) ∧ (idle []).refused = false ∧
    after State.refused (takeTurn (.command ⟨.cmd, [0x04#8]⟩) (idle [])) = some true :=
  ⟨⟨_, rfl⟩, rfl, rfl⟩

/-- O44, O46: the invariant holds after power-on, and that state steps. -/
theorem witness_Invariant : Inv (idle [0xAA#8]) ∧ ∃ t, step (idle [0xAA#8]) = .next t := by
  refine ⟨?_, _, rfl⟩
  constructor <;> simp [idle, State.powerOn, busy]

/-- O27, O44, O46, O51: the invariant holds while sending. -/
theorem witness_InvariantSending (st : SendStep) :
    Inv (sending st []) ∧ busy (sending st []) = true ∧ (sending st []).phase = .sending := by
  refine ⟨?_, rfl, rfl⟩
  constructor <;> simp [sending, idle, State.powerOn, busy, listedCode, fcClass, legalSlave, txCap]

/-- O44, O46, O51: the invariant holds while receiving. -/
theorem witness_InvariantReceiving : Inv (header 0x03#8 [] []) ∧ busy (header 0x03#8 [] []) = true := by
  refine ⟨?_, rfl⟩
  constructor <;> simp [header, idle, State.powerOn, busy, listedCode, fcClass, legalSlave]

/-- O45: a reachable state. -/
theorem witness_Reachable : Reachable (idle [0xAA#8]) := .powerOn _ _ _

/-- O47. -/
theorem witness_Transmission :
    (sending .drain [0xAA#8]).phase = .sending ∧ (sending .drain [0xAA#8]).sendStep = .drain ∧
    (sending .drain [0xAA#8]).drainCount = 0 ∧ (sending .drain [0xAA#8]).txIdx = 0 ∧ (sending .drain [0xAA#8]).txf ≠ [] := by
  decide +kernel

/-- O48: vector E17's response, and a byte after it; and E3's, which carries no payload. -/
theorem witness_GoodRead :
    (let p : List Byte := [0x02#8, 0x2B#8, 0x00#8, 0x00#8, 0x00#8, 0x64#8]
     let s := header 0x03#8 []
       [0x01#8, 0x03#8, 0x06#8, 0x02#8, 0x2B#8, 0x00#8, 0x00#8, 0x00#8, 0x64#8, 0x05#8, 0x7A#8, 0x99#8]
     s.phase = .awaitingHeader ∧ s.rxLen = 0 ∧ s.timer < s.cfg.deadlineTicks ∧ p.length ≤ 255 ∧ IsWordRead s.reqFc ∧
       s.pending = withWireCrc (s.reqSlave :: s.reqFc :: BitVec.ofNat 8 p.length :: p) ++ [0x99#8]) ∧
    (let s := header 0x03#8 [] [0x01#8, 0x03#8, 0x00#8, 0x20#8, 0xF0#8]
     s.phase = .awaitingHeader ∧ s.rxLen = 0 ∧ s.timer < s.cfg.deadlineTicks ∧ IsWordRead s.reqFc ∧
       s.pending = withWireCrc (s.reqSlave :: s.reqFc :: BitVec.ofNat 8 0 :: []) ++ []) := by
  unfold IsWordRead
  decide +kernel

/-- O48: vector S8's response to a coil read. -/
theorem witness_GoodRead_bits :
    let p : List Byte := [0x05#8, 0xFF#8, 0x01#8]
    let s := header 0x01#8 [] [0x01#8, 0x01#8, 0x03#8, 0x05#8, 0xFF#8, 0x01#8, 0xAC#8, 0x7F#8]
    s.phase = .awaitingHeader ∧ s.rxLen = 0 ∧ s.timer < s.cfg.deadlineTicks ∧ p.length ≤ 255 ∧ IsBitRead s.reqFc ∧
      s.pending = withWireCrc (s.reqSlave :: s.reqFc :: BitVec.ofNat 8 p.length :: p) ++ [] := by
  unfold IsBitRead
  decide +kernel

/-- O49: vectors E13 and E14. -/
theorem witness_GoodWrite :
    (let data : List Byte := [0x00#8, 0xAC#8, 0xFF#8, 0x00#8]
     let s := header 0x05#8 [] [0x01#8, 0x05#8, 0x00#8, 0xAC#8, 0xFF#8, 0x00#8, 0x4C#8, 0x1B#8]
     s.phase = .awaitingHeader ∧ s.rxLen = 0 ∧ s.timer < s.cfg.deadlineTicks ∧
       (IsPlainWrite s.reqFc ∧ data.length = 4) ∧ s.pending = withWireCrc (s.reqSlave :: s.reqFc :: data) ++ []) ∧
    (let data : List Byte := [0x00#8, 0x04#8, 0x00#8, 0xF2#8, 0x00#8, 0x25#8]
     let s := header 0x16#8 []
       [0x01#8, 0x16#8, 0x00#8, 0x04#8, 0x00#8, 0xF2#8, 0x00#8, 0x25#8, 0x67#8, 0xEE#8]
     s.phase = .awaitingHeader ∧ s.rxLen = 0 ∧ s.timer < s.cfg.deadlineTicks ∧
       (IsMaskWrite s.reqFc ∧ data.length = 6) ∧ s.pending = withWireCrc (s.reqSlave :: s.reqFc :: data) ++ []) := by
  unfold IsPlainWrite IsMaskWrite
  decide +kernel

/-- O50: one tick short of the deadline, and at it. -/
theorem witness_NoReply :
    receiving (header 0x03#8 [] []) = true ∧ (header 0x03#8 [] []).pending = [] ∧
    (∀ u ∈ [Turn.tick, .engine, .tick, .tick, .tick], u = .engine ∨ u = .tick) ∧
    (header 0x03#8 [] []).timer + [Turn.tick, .engine, .tick, .tick, .tick].count .tick <
      (header 0x03#8 [] []).cfg.deadlineTicks ∧
    (header 0x03#8 [] []).cfg.deadlineTicks ≤ (header 0x03#8 [] []).timer + (tickTurns 5).count .tick := by decide +kernel

/-- O52: a turn of each of the four agents leads to a next state. -/
theorem witness_Agents :
    ((Turn.command ⟨.cmd, [0x04#8]⟩).agent = .caller ∧ ∃ t, takeTurn (.command ⟨.cmd, [0x04#8]⟩) (idle []) = .next t) ∧
    (Turn.engine.agent = .engine ∧ ∃ t, takeTurn .engine (sending .tx []) = .next t) ∧
    ((Turn.command ⟨.aduResponse, [0x01#8, 0x83#8, 0x02#8, 0xC0#8, 0xF1#8]⟩).agent = .transport ∧
      ∃ t, takeTurn (.command ⟨.aduResponse, [0x01#8, 0x83#8, 0x02#8, 0xC0#8, 0xF1#8]⟩) (idle []) = .next t) ∧
    ((Turn.arrive 0x01#8).agent = .transport ∧ ∃ t, takeTurn (.arrive 0x01#8) (idle []) = .next t) ∧
    (Turn.tick.agent = .timer ∧ ∃ t, takeTurn .tick (idle []) = .next t) :=
  ⟨⟨rfl, _, rfl⟩, ⟨rfl, _, rfl⟩, ⟨rfl, _, rfl⟩, ⟨rfl, _, rfl⟩, ⟨rfl, _, rfl⟩⟩

/-- O53: the fields at both ends of each case: infinity, the least NaN, zero and the greatest subnormal, the normals. -/
theorem witness_FloatFields :
    ((0xFF800000#32).extractLsb' 23 8).toNat = 255 ∧ ((0xFF800000#32).extractLsb' 0 23).toNat = 0 ∧
    ((0x7F800001#32).extractLsb' 23 8).toNat = 255 ∧ ((0x7F800001#32).extractLsb' 0 23).toNat ≠ 0 ∧
    ((0x807FFFFF#32).extractLsb' 23 8).toNat = 0 ∧ ((0x00800000#32).extractLsb' 23 8).toNat = 1 ∧
    ((0x7F7FFFFF#32).extractLsb' 23 8).toNat = 254 ∧
    ((0x7FF0000000000000#64).extractLsb' 52 11).toNat = 2047 ∧ ((0x7FF0000000000000#64).extractLsb' 0 52).toNat = 0 ∧
    ((0x7FF0000000000001#64).extractLsb' 0 52).toNat ≠ 0 ∧ ((0x000FFFFFFFFFFFFF#64).extractLsb' 52 11).toNat = 0 ∧
    ((0x0010000000000000#64).extractLsb' 52 11).toNat = 1 ∧ ((0x7FEFFFFFFFFFFFFF#64).extractLsb' 52 11).toNat = 2046 := by
  decide +kernel

end Sys2Proof.Tests
end

/-! How a step takes its turn: the head of the schedule, and what each agent's turn is (20_memory.md R62). -/

namespace Sys2Proof.Machine

section
variable {s : State}

theorem step_of_schedule_cons {u : Turn} {rest : List Turn} (h : s.schedule = u :: rest) :
    step s = takeTurn u { s with schedule := rest } := by
  simp only [step, nextTurn, h]

theorem step_of_schedule_nil (h : s.schedule = []) : step s = .next s := by
  simp only [step, nextTurn, h]

theorem takeTurn_command_of_ok {c : Command} {i : Instr} (h : decode c = .ok i) (s : State) :
    takeTurn (.command c) s = exec i s := by
  simp only [takeTurn, runCommand, h]

theorem takeTurn_command_of_error {c : Command} {why : DecodeError} (h : decode c = .error why) (s : State) :
    takeTurn (.command c) s = .refused (.undecodable why) := by
  simp only [takeTurn, runCommand, h]

@[simp] theorem takeTurn_engine (s : State) : takeTurn .engine s = engineStep s := rfl

@[simp] theorem takeTurn_tick (s : State) : takeTurn .tick s = .next (tick s) := rfl

@[simp] theorem takeTurn_arrive (b : Byte) (s : State) : takeTurn (.arrive b) s = .next (arrive b s) := rfl

@[simp] theorem takeTurn_reset (cfg : Cfg) (s : State) : takeTurn (.reset cfg) s = .next (resetBlock cfg s) := rfl

end

/-- Settles O4: the head of the schedule is taken, and its agent's equation gives the step. -/
theorem stepTakesTheScheduledTurn : Obligations.StepTakesTheScheduledTurn := by
  unfold Obligations.StepTakesTheScheduledTurn
  refine ⟨fun s c i rest hs hc => ?_, fun s c why rest hs hc => ?_, fun s rest hs => ?_, fun s rest hs => ?_,
    fun s b rest hs => ?_, fun s cfg rest hs => ?_, fun s hs => step_of_schedule_nil hs⟩ <;>
    rw [step_of_schedule_cons hs]
  · exact takeTurn_command_of_ok hc _
  · exact takeTurn_command_of_error hc _
  · exact takeTurn_engine _
  · exact takeTurn_tick _
  · exact takeTurn_arrive b _
  · exact takeTurn_reset cfg _

end Sys2Proof.Machine

/-! The datum of a float's fields, case by case, and the way back to the pattern (00_scope.md R10, log 18). -/

namespace Sys2Proof.Machine

section
variable {eb fb e f : Nat} {negative : Bool}

theorem datumOfFields_infinity (he : e = 2 ^ eb - 1) (hf : f = 0) :
    datumOfFields eb fb negative e f = .infinity negative := by
  rw [datumOfFields, if_pos he, if_pos hf]

theorem datumOfFields_nan (he : e = 2 ^ eb - 1) (hf : f ≠ 0) :
    datumOfFields eb fb negative e f = .nan negative f := by
  rw [datumOfFields, if_pos he, if_neg hf]

/-- The signed zeros and the subnormals. -/
theorem datumOfFields_subnormal (hne : e ≠ 2 ^ eb - 1) (he : e = 0) :
    datumOfFields eb fb negative e f = .finite negative f (1 - (2 ^ (eb - 1) - 1) - fb) := by
  rw [datumOfFields, if_neg hne, if_pos he]

theorem datumOfFields_normal (hne : e ≠ 2 ^ eb - 1) (he : e ≠ 0) :
    datumOfFields eb fb negative e f = .finite negative (2 ^ fb + f) (e - (2 ^ (eb - 1) - 1) - fb) := by
  rw [datumOfFields, if_neg hne, if_neg he]

/-- The encoding of the datum of some fields packs those fields again: sign, exponent, fraction. -/
theorem encodeDatum_datumOfFields (hf : f < 2 ^ fb) :
    encodeDatum eb fb (datumOfFields eb fb negative e f) =
      (if negative then 2 ^ (eb + fb) else 0) + e * 2 ^ fb + f := by
  by_cases hmax : e = 2 ^ eb - 1
  · by_cases hzero : f = 0
    · rw [datumOfFields_infinity hmax hzero, encodeDatum, hmax, hzero]
    · rw [datumOfFields_nan hmax hzero, encodeDatum, hmax]
  · by_cases hsub : e = 0
    · rw [datumOfFields_subnormal hmax hsub, encodeDatum, if_pos hf, hsub]
    · have hexp : ((e : Int) - (2 ^ (eb - 1) - 1) - fb + (2 ^ (eb - 1) - 1) + fb).toNat = e := by omega
      rw [datumOfFields_normal hmax hsub, encodeDatum, if_neg (Nat.not_lt.mpr (Nat.le_add_right _ f)), hexp,
        Nat.add_sub_cancel_left]

/-- A pattern is its sign bit, its exponent field and its fraction field, each at its place. -/
theorem toNat_eq_packedFields (v : BitVec (eb + fb + 1)) :
    (if v.getLsbD (eb + fb) then 2 ^ (eb + fb) else 0) + (v.extractLsb' fb eb).toNat * 2 ^ fb +
      (v.extractLsb' 0 fb).toNat = v.toNat := by
  have hsign : v.toNat / 2 ^ (eb + fb) < 2 := Nat.div_lt_of_lt_mul (by simpa [Nat.pow_succ] using v.isLt)
  have hsplit : v.toNat / 2 ^ fb / 2 ^ eb = v.toNat / 2 ^ (eb + fb) := by
    rw [Nat.div_div_eq_div_mul, ← Nat.pow_add, Nat.add_comm fb eb]
  have hsignBit : (if v.getLsbD (eb + fb) then 2 ^ (eb + fb) else 0) =
      v.toNat / 2 ^ fb / 2 ^ eb * 2 ^ eb * 2 ^ fb := by
    rw [hsplit, Nat.mul_assoc, ← Nat.pow_add, BitVec.getLsbD, Nat.testBit_eq_decide_div_mod_eq,
      Nat.mod_eq_of_lt hsign]
    obtain h | h := Nat.le_one_iff_eq_zero_or_eq_one.mp (Nat.le_of_lt_succ hsign) <;> simp [h]
  rw [hsignBit, BitVec.extractLsb'_toNat, BitVec.extractLsb'_toNat, Nat.shiftRight_eq_div_pow, Nat.shiftRight_zero,
    ← Nat.add_mul, Nat.div_add_mod', Nat.div_add_mod']

end

theorem f32Bits_f32OfBits (v : BitVec 32) : f32Bits (f32OfBits v) = v := by
  rw [f32Bits, f32OfBits, encodeDatum_datumOfFields (v.extractLsb' 0 23).isLt,
    toNat_eq_packedFields (eb := 8) (fb := 23) v, BitVec.ofNat_toNat, BitVec.setWidth_eq]

theorem f64Bits_f64OfBits (v : BitVec 64) : f64Bits (f64OfBits v) = v := by
  rw [f64Bits, f64OfBits, encodeDatum_datumOfFields (v.extractLsb' 0 52).isLt,
    toNat_eq_packedFields (eb := 11) (fb := 52) v, BitVec.ofNat_toNat, BitVec.setWidth_eq]

/-- Settles O22: the encoding is a left inverse of the reading, for each width. -/
theorem floatReinterpretationKeepsEveryBit : Obligations.FloatReinterpretationKeepsEveryBit :=
  ⟨f32Bits_f32OfBits, f64Bits_f64OfBits, fun _ _ h => Function.LeftInverse.injective f32Bits_f32OfBits h,
    fun _ _ h => Function.LeftInverse.injective f64Bits_f64OfBits h⟩

/-- Settles O53: the four cases of `datumOfFields` at each width's exponent range and bias. -/
theorem floatDatumsFollowTheIeeeFields : Obligations.FloatDatumsFollowTheIeeeFields := by
  refine ⟨fun v => ⟨fun he hf => datumOfFields_infinity he hf, fun he hf => datumOfFields_nan he hf,
      fun he => ?_, fun hpos hlt => ?_⟩,
    fun v => ⟨fun he hf => datumOfFields_infinity he hf, fun he hf => datumOfFields_nan he hf,
      fun he => ?_, fun hpos hlt => ?_⟩⟩
  · exact datumOfFields_subnormal (by omega) he
  · rw [f32OfBits, datumOfFields_normal (by omega) (by omega)]
    congr 1; omega
  · exact datumOfFields_subnormal (by omega) he
  · rw [f64OfBits, datumOfFields_normal (by omega) (by omega)]
    congr 1; omega

end Sys2Proof.Machine

/-! What an instruction can do, said once: an answer, EXEC_START, or the first byte of an exception response. -/

namespace Sys2Proof.Machine

section
variable {s t : State}

theorem onlyAnswers_of_answer {r : Reply} (h : Host.Outcome.next (answer r s) = (.next t : Result)) :
    OnlyAnswers s t := by
  injection h with h
  exact .inl ⟨r, h.symm⟩

theorem onlyAnswers_of_refuse {c : RefusedCase} (h : Host.Outcome.next (refuse c s) = (.next t : Result)) :
    OnlyAnswers s t := by
  injection h with h
  exact .inr ⟨c, h.symm⟩

theorem execBuild_onlyAnswers {slave fc : Byte} {start qty : Reg} {extra : List Byte}
    (h : execBuild slave fc start qty extra s = .next t) : OnlyAnswers s t := by
  unfold execBuild at h
  split at h
  · exact onlyAnswers_of_answer h
  · exact onlyAnswers_of_answer h

theorem execBankRead_onlyAnswers {i : Nat} (h : execBankRead i s = .next t) : OnlyAnswers s t := by
  unfold execBankRead at h
  split at h
  · exact onlyAnswers_of_refuse h
  · exact readBank_onlyAnswers h

theorem execDecode_onlyAnswers {start : Nat} {enc : Byte} (h : execDecode start enc s = .next t) :
    OnlyAnswers s t := by
  unfold execDecode at h
  split at h
  · exact onlyAnswers_of_refuse h
  · split at h
    · exact onlyAnswers_of_refuse h
    · exact readBank_onlyAnswers h

theorem execResult_onlyAnswers (h : execResult s = .next t) : OnlyAnswers s t := by
  unfold execResult at h
  split at h
  · exact onlyAnswers_of_refuse h
  · split at h
    · exact onlyAnswers_of_refuse h
    · split at h
      · exact onlyAnswers_of_answer h
      · cases h

/-- The three things an instruction can do: only answer, EXEC_START, or bring in an exception response's first byte. -/
theorem exec_cases {i : Instr} (h : exec i s = .next t) :
    OnlyAnswers s t ∨
    (∃ slave fc start qty extra, AsksFor i slave fc start qty extra ∧
      startTransaction slave fc start qty extra s = .next t) ∨
    (∃ slave fc code crcLo crcHi, i = .exceptionResponse slave fc code crcLo crcHi ∧
      t = comeNext (exceptionTurns fc code crcLo crcHi s) (arrive slave s)) := by
  cases i with
  | crc16 | crcCheck => exact .inl (onlyAnswers_of_answer h)
  | build => exact .inl (execBuild_onlyAnswers h)
  | result => exact .inl (execResult_onlyAnswers h)
  | bankRead => exact .inl (execBankRead_onlyAnswers h)
  | decode => exact .inl (execDecode_onlyAnswers h)
  | reservedOp7 | decodeF16Reserved => exact .inl (onlyAnswers_of_refuse h)
  | decodeU16 | decodeS16 | decodeU32 | decodeS32 | decodeF32 | decodeU64 | decodeS64 | decodeF64 =>
    exact .inl (decodeTyped_onlyAnswers h)
  | exceptionResponse => injection h with h; exact .inr (.inr ⟨_, _, _, _, _, rfl, h.symm⟩)
  | exec | readCoils | readDiscreteInputs | readHoldingRegisters | readInputRegisters | writeSingleCoil
  | writeSingleRegister | writeMultipleCoils | writeMultipleRegisters | maskWriteRegister
  | readWriteMultipleRegisters =>
    refine .inr (.inl ⟨_, _, _, _, _, ?_, h⟩)
    simp [AsksFor]

end

end Sys2Proof.Machine

/-! What each agent's step leaves as it was (00_scope.md R4). -/

namespace Sys2Proof.Machine

/-- What no step of the caller changes: the accumulator's bytes, the bank, the configuration, the transport, the logs and the
schedule. -/
structure CallerKeeps (s t : State) : Prop where
  rx : t.rx = s.rx
  bank : t.bank = s.bank
  cfg : t.cfg = s.cfg
  pending : t.pending = s.pending
  sent : t.sent = s.sent
  events : t.events = s.events
  schedule : t.schedule = s.schedule

/-- What no step of the engine changes: the request, the frame, the configuration, the mark, the answer and the schedule. -/
structure EngineKeeps (s t : State) : Prop where
  reqSlave : t.reqSlave = s.reqSlave
  reqFc : t.reqFc = s.reqFc
  txf : t.txf = s.txf
  cfg : t.cfg = s.cfg
  refused : t.refused = s.refused
  reply : t.reply = s.reply
  schedule : t.schedule = s.schedule

section
variable {s t u : State}

theorem OnlyAnswers.callerKeeps (h : OnlyAnswers s t) : CallerKeeps s t := by
  obtain ⟨r, rfl⟩ | ⟨c, rfl⟩ := h
  · constructor <;> rfl
  · constructor <;> rfl

theorem launch_callerKeeps (frame : Option (List Byte)) (s : State) : CallerKeeps s (launch frame s) := by
  cases frame <;> constructor <;> rfl

theorem startTransaction_callerKeeps {slave fc : Byte} {start qty : Reg} {extra : List Byte}
    (h : startTransaction slave fc start qty extra s = .next t) : CallerKeeps s t := by
  obtain ⟨c, rfl, -⟩ | ⟨-, -, -, rfl⟩ := startTransaction_cases h
  · exact OnlyAnswers.callerKeeps (.inr ⟨c, rfl⟩)
  · obtain ⟨hrx, hbank, hcfg, hpending, hsent, hevents, hschedule⟩ :=
      launch_callerKeeps (buildFrame slave fc start qty extra) (latchRequest slave fc s)
    exact ⟨hrx, hbank, hcfg, hpending, hsent, hevents, hschedule⟩

theorem exec_callerKeeps {i : Instr} (hi : ¬ IsExceptionResponse i) (h : exec i s = .next t) : CallerKeeps s t := by
  obtain h | ⟨slave, fc, start, qty, extra, -, h⟩ | ⟨slave, fc, code, crcLo, crcHi, rfl, -⟩ := exec_cases h
  · exact h.callerKeeps
  · exact startTransaction_callerKeeps h
  · exact absurd ⟨slave, fc, code, crcLo, crcHi, rfl⟩ hi

theorem EngineKeeps.refl (s : State) : EngineKeeps s s := by constructor <;> rfl

theorem EngineKeeps.trans (h : EngineKeeps s t) (h' : EngineKeeps t u) : EngineKeeps s u where
  reqSlave := h'.reqSlave.trans h.reqSlave
  reqFc := h'.reqFc.trans h.reqFc
  txf := h'.txf.trans h.txf
  cfg := h'.cfg.trans h.cfg
  refused := h'.refused.trans h.refused
  reply := h'.reply.trans h.reply
  schedule := h'.schedule.trans h.schedule

theorem finish_engineKeeps (st : Status) (s : State) : EngineKeeps s (finish st s) := by constructor <;> rfl

theorem tryRead_engineKeeps (s : State) : EngineKeeps s (tryRead s) := by constructor <;> rfl

theorem rxAppend_engineKeeps (b : Byte) (s : State) : EngineKeeps s (rxAppend b s) := by constructor <;> rfl

theorem disassemble_engineKeeps (s : State) : EngineKeeps s (disassemble s) := by
  obtain ⟨regs, h, -⟩ | ⟨h, -⟩ := disassemble_cases s <;> rw [h]
  · constructor <;> rfl
  · exact .refl s

theorem complete_engineKeeps (s : State) : EngineKeeps s (complete s) := by
  obtain ⟨-, h⟩ | ⟨-, h⟩ := complete_cases s <;> rw [h]
  · exact (disassemble_engineKeeps s).trans (finish_engineKeeps _ _)
  · exact finish_engineKeeps _ s

theorem completeStage_engineKeeps (s : State) : EngineKeeps s (completeStage s) := by
  unfold completeStage
  split
  · exact complete_engineKeeps s
  · exact .refl s

theorem headerCheck_engineKeeps (h : headerCheck s = .next t) : EngineKeeps s t := by
  obtain ⟨-, rfl⟩ | ⟨-, -, rfl⟩ | ⟨-, -, -, rfl⟩ | ⟨-, -, -, n, -, rfl⟩ := headerCheck_cases h
  · exact finish_engineKeeps _ s
  · exact finish_engineKeeps _ s
  · exact finish_engineKeeps _ s
  · constructor <;> rfl

theorem headerStage_engineKeeps (h : headerStage s = .next t) : EngineKeeps s t := by
  unfold headerStage at h
  split at h
  · exact headerCheck_engineKeeps h
  · injection h with h
    exact h ▸ .refl s

theorem takeByte_engineKeeps {b : Byte} (h : takeByte b s = .next t) : EngineKeeps s t := by
  obtain ⟨-, m, hm, rfl⟩ := takeByte_cases h
  exact ((rxAppend_engineKeeps b s).trans (headerStage_engineKeeps hm)).trans (completeStage_engineKeeps m)

theorem poll_engineKeeps (h : poll s = .next t) : EngineKeeps s t := by
  obtain ⟨-, rfl⟩ | ⟨-, -, rfl⟩ | ⟨-, b, rest, -, h⟩ := poll_cases h
  · exact finish_engineKeeps _ s
  · exact tryRead_engineKeeps s
  · exact (tryRead_engineKeeps s).trans (takeByte_engineKeeps h)

theorem drain_engineKeeps (s : State) : EngineKeeps s (drain s) := by
  obtain ⟨-, h⟩ | ⟨-, -, h⟩ | ⟨-, -, h⟩ := drain_cases s <;> rw [h] <;> constructor <;> rfl

theorem preHook_engineKeeps (s : State) : EngineKeeps s (preHook s) := by
  constructor <;> simp [preHook]

theorem tx_engineKeeps (h : tx s = .next t) : EngineKeeps s t := by
  obtain ⟨b, -, rfl⟩ := tx_cases h
  constructor <;> rfl

theorem flush_engineKeeps (s : State) : EngineKeeps s (flush s) := by constructor <;> rfl

theorem postHook_engineKeeps (s : State) : EngineKeeps s (postHook s) := by
  constructor <;> simp [postHook]

theorem settle_engineKeeps (s : State) : EngineKeeps s (settle s) := by
  obtain ⟨-, h⟩ | ⟨-, h⟩ := settle_cases s <;> rw [h]
  · exact .refl s
  · constructor <;> rfl

theorem sendingStep_engineKeeps (h : sendingStep s = .next t) : EngineKeeps s t := by
  unfold sendingStep at h
  split at h
  case h_3 => exact tx_engineKeeps h
  all_goals injection h with h; subst h
  · exact drain_engineKeeps s
  · exact preHook_engineKeeps s
  · exact flush_engineKeeps s
  · exact postHook_engineKeeps s
  · exact settle_engineKeeps s

theorem engineStep_engineKeeps (h : engineStep s = .next t) : EngineKeeps s t := by
  obtain ⟨-, he⟩ | ⟨-, he⟩ | ⟨-, he⟩ := engineStep_cases s <;> rw [he] at h
  · injection h with h
    exact h ▸ .refl s
  · exact sendingStep_engineKeeps h
  · exact poll_engineKeeps h

end

section
variable {u : Turn} {s t : State}

/-- The caller issues every command but a response frame (log 4). -/
theorem agent_command (c : Command) :
    (Turn.command c).agent = if c.format = .aduResponse then .transport else .caller := by
  obtain ⟨format, bytes⟩ := c
  cases format <;> rfl

theorem takeTurn_callerKeeps (ha : u.agent = .caller) (h : takeTurn u s = .next t) : CallerKeeps s t := by
  obtain ⟨c, i, rfl, hc, h⟩ | ⟨rfl, -⟩ | ⟨rfl, -⟩ | ⟨b, rfl, -⟩ | ⟨cfg, rfl, -⟩ := takeTurn_cases h
  · refine exec_callerKeeps (fun hi => ?_) h
    rw [agent_command, if_pos ((decode_format hc).mpr hi)] at ha
    cases ha
  all_goals cases ha

theorem takeTurn_engineKeeps (ha : u.agent = .engine) (h : takeTurn u s = .next t) : EngineKeeps s t := by
  obtain ⟨c, i, rfl, -, -⟩ | ⟨rfl, h⟩ | ⟨rfl, -⟩ | ⟨b, rfl, -⟩ | ⟨cfg, rfl, -⟩ := takeTurn_cases h
  · rw [agent_command] at ha
    split at ha <;> cases ha
  · exact engineStep_engineKeeps h
  all_goals cases ha

/-- The transport delivers one byte: by itself, or as the first of an exception response whose later turns come next. -/
theorem takeTurn_transport (ha : u.agent = .transport) (h : takeTurn u s = .next t) :
    ∃ b turns, t = comeNext turns (arrive b s) := by
  obtain ⟨c, i, rfl, hc, h⟩ | ⟨rfl, -⟩ | ⟨rfl, -⟩ | ⟨b, rfl, rfl⟩ | ⟨cfg, rfl, -⟩ := takeTurn_cases h
  · have hf : c.format = .aduResponse := by
      by_contra hf
      rw [agent_command, if_neg hf] at ha
      cases ha
    obtain ⟨slave, fc, code, crcLo, crcHi, rfl⟩ := (decode_format hc).mp hf
    injection h with h
    exact ⟨slave, exceptionTurns fc code crcLo crcHi s, h.symm⟩
  case inr.inr.inr.inl => exact ⟨b, [], rfl⟩
  all_goals cases ha

theorem takeTurn_timer (ha : u.agent = .timer) (h : takeTurn u s = .next t) : t = tick s := by
  obtain ⟨c, i, rfl, -, -⟩ | ⟨rfl, -⟩ | ⟨rfl, rfl⟩ | ⟨b, rfl, -⟩ | ⟨cfg, rfl, -⟩ := takeTurn_cases h
  · rw [agent_command] at ha
    split at ha <;> cases ha
  case inr.inr.inl => rfl
  all_goals cases ha

end

/-- Settles O52: what each of the four agents' turns keeps. -/
theorem eachStepIsOneAgentsAndTouchesOnlyItsOwn : Obligations.EachStepIsOneAgentsAndTouchesOnlyItsOwn := by
  refine fun u s t h => ⟨fun ha => ?_, fun ha => ?_, fun ha => ?_, fun ha => takeTurn_timer ha h⟩
  · obtain ⟨hrx, hbank, hcfg, hpending, hsent, hevents, hschedule⟩ := takeTurn_callerKeeps ha h
    exact ⟨hrx, hbank, hcfg, hpending, hsent, hevents, hschedule⟩
  · obtain ⟨hslave, hfc, htxf, hcfg, hrefused, hreply, hschedule⟩ := takeTurn_engineKeeps ha h
    exact ⟨hslave, hfc, htxf, hcfg, hrefused, hreply, hschedule⟩
  · obtain ⟨b, turns, rfl⟩ := takeTurn_transport ha h
    exact ⟨b, rfl⟩

end Sys2Proof.Machine

/-! The step invariant, and the spec's list that follows from it (10_state.md R39). -/

namespace Sys2Proof.Machine

section
variable {s t : State}

theorem busy_iff : busy s = true ↔ s.phase = .sending ∨ s.phase = .awaitingHeader ∨ s.phase = .awaitingBody := by
  cases h : s.phase <;> simp [busy, h]

theorem not_busy_iff : busy s = false ↔ s.phase = .idle ∨ s.phase = .done := by
  cases h : s.phase <;> simp [busy, h]

theorem receiving_iff : receiving s = true ↔ s.phase = .awaitingHeader ∨ s.phase = .awaitingBody := by
  cases h : s.phase <;> simp [receiving, h]

/-- With nothing received, sent or in the bank, the invariant asks only for the status, the request and the frame. -/
theorem inv_of_nothing_received (hphase : s.phase ≠ .awaitingBody) (hrx : s.rxLen = 0) (hexp : s.expected = none)
    (hbank : s.bankLen = 0) (htx : s.txIdx = 0) (hdrain : s.drainCount = 0)
    (hstatus : s.status ≠ none ↔ s.phase = .done)
    (hreq : busy s = true → listedCode s.reqFc = true ∧ legalSlave s.reqSlave = true)
    (hlen : s.phase = .sending → 8 ≤ s.txf.length) (hcap : s.txf.length ≤ txCap) : Inv s where
  headerLen _ := by omega
  bodyLen h := absurd h hphase
  bodyHeader h := absurd h hphase
  expectedRange n h := by simp [hexp] at h
  expectedIff := by simp [hexp, hphase, HeaderPassed, hrx]
  rxLenCap := by omega
  bankLenCap := by omega
  statusIff := hstatus
  bankValid h := by omega
  requestLegal := hreq
  sendingLen _ := hrx
  frameLen := hlen
  frameCap := hcap
  txStart _ _ := htx
  txInFrame h _ := by have := hlen h; omega
  txIdxCap := by omega
  drainBound := by omega

theorem powerOn_inv (cfg : Cfg) (pending : List Byte) (refused : Bool) (schedule : List Turn) :
    Inv (State.powerOn cfg pending refused schedule) :=
  inv_of_nothing_received nofun rfl rfl rfl rfl rfl (by simp [State.powerOn]) nofun nofun (Nat.zero_le _)

/-- Settles O43: nothing is received, sent or in the bank after power-on. -/
theorem powerOnStatesMeetTheStepInvariant : Obligations.PowerOnStatesMeetTheStepInvariant :=
  ⟨powerOn_inv _ _ _ _, powerOn_inv⟩

/-! Operations that change nothing the invariant speaks of. -/

theorem answer_inv (r : Reply) (h : Inv s) : Inv (answer r s) := { h with }

theorem refuse_inv (c : RefusedCase) (h : Inv s) : Inv (refuse c s) := { h with }

theorem tick_inv (h : Inv s) : Inv (tick s) := { h with }

theorem arrive_inv (b : Byte) (h : Inv s) : Inv (arrive b s) := { h with }

theorem comeNext_inv (turns : List Turn) (h : Inv s) : Inv (comeNext turns s) := { h with }

theorem setSchedule_inv (turns : List Turn) (h : Inv s) : Inv { s with schedule := turns } := { h with }

theorem logEvent_inv (e : Event) (h : Inv s) : Inv (logEvent e s) := { h with }

theorem tryRead_inv (h : Inv s) : Inv (tryRead s) := { h with }

/-! The caller's step: an answer, or EXEC_START. -/

theorem OnlyAnswers.inv (ha : OnlyAnswers s t) (h : Inv s) : Inv t := by
  obtain ⟨r, rfl⟩ | ⟨c, rfl⟩ := ha
  · exact answer_inv r h
  · exact refuse_inv c h

theorem appendCrc_length (body : List Byte) : (appendCrc body).length = body.length + 2 := by
  simp [appendCrc]

/-- A built frame has 8 to 256 bytes (R24, R72). -/
theorem buildFrame_length {slave fc : Byte} {start qty : Reg} {extra f : List Byte}
    (h : buildFrame slave fc start qty extra = some f) : 8 ≤ f.length ∧ f.length ≤ txCap := by
  obtain ⟨hlen, rfl⟩ := buildFrame_some h
  rw [appendCrc_length, requestBody_length, txCap]
  omega

/-- A started transaction has received nothing, and its frame, where one was built, has the length of a frame. -/
theorem launch_inv {slave fc : Byte} {frame : Option (List Byte)} (h : Inv s) (hfc : listedCode fc = true)
    (hslave : legalSlave slave = true) (hframe : ∀ f, frame = some f → 8 ≤ f.length ∧ f.length ≤ txCap) :
    Inv (launch frame (latchRequest slave fc s)) := by
  cases frame with
  | none =>
    exact inv_of_nothing_received nofun rfl rfl rfl rfl rfl (by simp [launch]) nofun nofun h.frameCap
  | some f =>
    obtain ⟨hlen, hcap⟩ := hframe f rfl
    exact inv_of_nothing_received nofun rfl rfl rfl rfl rfl (by simp [launch]) (fun _ => ⟨hfc, hslave⟩)
      (fun _ => hlen) hcap

theorem startTransaction_inv {slave fc : Byte} {start qty : Reg} {extra : List Byte} (h : Inv s)
    (he : startTransaction slave fc start qty extra s = .next t) : Inv t := by
  obtain ⟨c, rfl, -⟩ | ⟨-, hfc, hslave, rfl⟩ := startTransaction_cases he
  · exact refuse_inv c h
  · exact answer_inv _ (launch_inv h hfc hslave fun f => buildFrame_length)

theorem exec_inv {i : Instr} (h : Inv s) (he : exec i s = .next t) : Inv t := by
  obtain ha | ⟨slave, fc, start, qty, extra, -, he⟩ | ⟨slave, fc, code, crcLo, crcHi, -, rfl⟩ := exec_cases he
  · exact ha.inv h
  · exact startTransaction_inv h he
  · exact comeNext_inv _ (arrive_inv slave h)

/-! The engine's steps of `Sending`, by sub-state. -/

theorem drain_inv (h : Inv s) (hp : s.phase = .sending) (hs : s.sendStep = .drain) : Inv (drain s) := by
  have htx : s.txIdx = 0 := h.txStart hp (.inl hs)
  obtain ⟨-, he⟩ | ⟨-, -, he⟩ | ⟨hne, -, he⟩ := drain_cases s <;> rw [he]
  · exact { h with txStart := fun _ _ => htx, txInFrame := nofun }
  · exact { tryRead_inv h with txStart := fun _ _ => htx, txInFrame := nofun }
  · exact { tryRead_inv h with drainBound := Nat.lt_of_le_of_ne h.drainBound hne }

theorem callPreHook_inv (h : Inv s) : Inv (callPreHook s) := by
  unfold callPreHook
  split
  · exact logEvent_inv .pre h
  · exact h

theorem callPostHook_inv (h : Inv s) : Inv (callPostHook s) := by
  unfold callPostHook
  split
  · exact logEvent_inv .post h
  · exact h

/-- The frame to be sent is not empty, so its first index is in it. -/
theorem preHook_inv (h : Inv s) (hp : s.phase = .sending) (hs : s.sendStep = .preHook) : Inv (preHook s) := by
  have htx : s.txIdx = 0 := h.txStart hp (.inr hs)
  have hlen : 8 ≤ s.txf.length := h.frameLen hp
  refine { callPreHook_inv h with txStart := fun _ _ => ?_, txInFrame := fun _ _ => ?_ }
  · simpa [preHook] using htx
  · simp only [preHook, callPreHook_txIdx, callPreHook_txf]; omega

/-- The index moves on inside the frame, and leaves `Tx` where it reaches the frame's end. -/
theorem tx_inv (h : Inv s) (hs : s.sendStep = .tx) (he : tx s = .next t) : Inv t := by
  obtain ⟨b, hb, rfl⟩ := tx_cases he
  obtain ⟨hlt, -⟩ := List.getElem?_eq_some_iff.mp hb
  by_cases hend : s.txIdx + 1 = s.txf.length
  · simp only [if_pos hend]
    exact { h with txStart := nofun, txInFrame := nofun, txIdxCap := hlt }
  · simp only [if_neg hend, hs]
    exact { h with txStart := nofun, txInFrame := fun _ _ => Nat.lt_of_le_of_ne hlt hend, txIdxCap := hlt }

theorem flush_inv (h : Inv s) : Inv (flush s) := { h with txStart := nofun, txInFrame := nofun }

theorem postHook_inv (h : Inv s) : Inv (postHook s) :=
  { callPostHook_inv h with txStart := nofun, txInFrame := nofun }

/-- The response phase starts with nothing received. -/
theorem settle_inv (h : Inv s) (hp : s.phase = .sending) : Inv (settle s) := by
  obtain ⟨-, he⟩ | ⟨-, he⟩ := settle_cases s <;> rw [he]
  · exact h
  · exact { h with
      headerLen := fun _ => by simp [h.sendingLen hp]
      bodyLen := nofun
      bodyHeader := nofun
      expectedIff := by simpa [hp] using h.expectedIff
      statusIff := by simpa [hp] using h.statusIff
      bankValid := fun hb => absurd (h.bankValid hb).1 (by simp [hp])
      requestLegal := fun _ => h.requestLegal (by simp [busy, hp])
      sendingLen := nofun
      frameLen := nofun
      txStart := nofun
      txInFrame := nofun }

theorem sendingStep_inv (h : Inv s) (hp : s.phase = .sending) (he : sendingStep s = .next t) : Inv t := by
  unfold sendingStep at he
  split at he
  case h_3 hs => exact tx_inv h hs he
  all_goals injection he with he; subst he
  · exact drain_inv h hp ‹_›
  · exact preHook_inv h hp ‹_›
  · exact flush_inv h
  · exact postHook_inv h
  · exact settle_inv h hp

/-! The poll. Between the append and the end of the poll the accumulator may be full; `MidPoll` is what holds there. -/

/-- What holds all through a poll: the invariant, but that the header or the body may be complete. -/
structure MidPoll (s : State) : Prop where
  phase : s.phase = .awaitingHeader ∨ s.phase = .awaitingBody
  header : s.phase = .awaitingHeader → s.expected = none ∧ s.rxLen ≤ 5
  body : s.phase = .awaitingBody → HeaderPassed s ∧ ∃ n, s.expected = some n ∧ 5 ≤ n ∧ n ≤ rxCap ∧ s.rxLen ≤ n
  status : s.status = none
  bankLen : s.bankLen = 0
  request : listedCode s.reqFc = true ∧ legalSlave s.reqSlave = true
  frameCap : s.txf.length ≤ txCap
  txIdxCap : s.txIdx ≤ s.txf.length
  drainBound : s.drainCount ≤ s.cfg.drainMax

/-- The header, or the body, still lacks a byte. -/
def LacksByte (s : State) : Prop :=
  (s.phase = .awaitingHeader → s.rxLen < 5) ∧ (s.phase = .awaitingBody → s.expected ≠ some s.rxLen)

theorem Inv.lacksByte (h : Inv s) : LacksByte s := by
  refine ⟨h.headerLen, fun hp => ?_⟩
  obtain ⟨n, hn, hlt⟩ := h.bodyLen hp
  simp only [hn, ne_eq, Option.some.injEq]
  omega

theorem Inv.midPoll (h : Inv s) (hr : receiving s = true) : MidPoll s := by
  have hphase := receiving_iff.mp hr
  have hnd : s.phase ≠ .done := by rintro hp; simp [hp] at hphase
  exact
    { phase := hphase
      header := fun hp => ⟨by simpa [hp] using h.expectedIff, Nat.le_of_lt (h.headerLen hp)⟩
      body := fun hp => by
        obtain ⟨n, hn, -⟩ := h.bodyLen hp
        exact ⟨h.bodyHeader hp, n, hn, h.expectedRange n hn⟩
      status := by simpa [hnd] using h.statusIff
      bankLen := Nat.eq_zero_of_not_pos fun hb => hnd (h.bankValid hb).1
      request := h.requestLegal (busy_iff.mpr (.inr hphase))
      frameCap := h.frameCap
      txIdxCap := h.txIdxCap
      drainBound := h.drainBound }

theorem MidPoll.not_sending (h : MidPoll s) : s.phase ≠ .sending := by
  rintro hp
  simpa [hp] using h.phase

theorem MidPoll.not_done (h : MidPoll s) : s.phase ≠ .done := by
  rintro hp
  simpa [hp] using h.phase

theorem MidPoll.expected_iff (h : MidPoll s) : s.expected ≠ none ↔ s.phase = .awaitingBody := by
  obtain hp | hp := h.phase
  · simp [hp, (h.header hp).1]
  · obtain ⟨-, n, hn, -⟩ := h.body hp
    simp [hp, hn]

theorem MidPoll.expected_range (h : MidPoll s) {n : Nat} (hn : s.expected = some n) :
    5 ≤ n ∧ n ≤ rxCap ∧ s.rxLen ≤ n := by
  obtain ⟨-, m, hm, hrange⟩ := h.body (h.expected_iff.mp (by simp [hn]))
  rwa [Option.some.inj (hn.symm.trans hm)]

theorem MidPoll.rxLen_le (h : MidPoll s) : s.rxLen ≤ rxCap := by
  obtain hp | hp := h.phase
  · exact Nat.le_trans (h.header hp).2 (by decide)
  · obtain ⟨-, n, -, -, hn, hle⟩ := h.body hp
    exact Nat.le_trans hle hn

/-- A poll that leaves a byte lacking keeps the invariant. -/
theorem MidPoll.inv (h : MidPoll s) (hl : LacksByte s) : Inv s where
  headerLen := hl.1
  bodyLen hp := by
    obtain ⟨-, n, hn, -, -, hle⟩ := h.body hp
    exact ⟨n, hn, Nat.lt_of_le_of_ne hle fun he => hl.2 hp (he ▸ hn)⟩
  bodyHeader hp := (h.body hp).1
  expectedRange _ := h.expected_range
  expectedIff := by simpa [h.not_done] using h.expected_iff
  rxLenCap := h.rxLen_le
  bankLenCap := by simp [h.bankLen]
  statusIff := by simp [h.status, h.not_done]
  bankValid hb := absurd h.bankLen (Nat.ne_of_gt hb)
  requestLegal _ := h.request
  sendingLen hp := absurd hp h.not_sending
  frameLen hp := absurd hp h.not_sending
  frameCap := h.frameCap
  txStart hp := absurd hp h.not_sending
  txInFrame hp := absurd hp h.not_sending
  txIdxCap := h.txIdxCap
  drainBound := h.drainBound

/-- A transaction may end in `AwaitingBody`, and in `AwaitingHeader` where the header has not passed. -/
theorem MidPoll.finish_inv (st : Status) (h : MidPoll s) (hfail : s.phase = .awaitingHeader → ¬ HeaderPassed s) :
    Inv (finish st s) where
  headerLen := nofun
  bodyLen := nofun
  bodyHeader := nofun
  expectedRange _ := h.expected_range
  expectedIff := by
    have hpassed : s.phase = .awaitingBody ↔ HeaderPassed s := by
      obtain hp | hp := h.phase
      · simpa [hp] using hfail hp
      · simpa [hp] using (h.body hp).1
    exact (h.expected_iff.trans hpassed).trans ⟨fun hh => .inr ⟨rfl, hh⟩, fun hh => hh.elim nofun (·.2)⟩
  rxLenCap := h.rxLen_le
  bankLenCap := by simp [h.bankLen]
  statusIff := by simp
  bankValid hb := absurd h.bankLen (Nat.ne_of_gt hb)
  requestLegal := nofun
  sendingLen := nofun
  frameLen := nofun
  frameCap := h.frameCap
  txStart := nofun
  txInFrame := nofun
  txIdxCap := h.txIdxCap
  drainBound := h.drainBound

theorem payload_length_le (s : State) : (payload s).length ≤ 255 := by
  have hlt := (rxByte s 2).isLt
  simp only [payload, List.length_take]
  omega

/-- A disassembled response fits the bank (R114, R171, R172). -/
theorem disasm_length_le {regs : List Reg} (h : regs = disasmBits (payload s) ∨ regs = disasmWords (payload s)) :
    regs.length ≤ bankCap := by
  have hp := payload_length_le s
  obtain rfl | rfl := h
  · rw [disasmBits_length, bankCap]; omega
  · rw [disasmWords_length, bankCap]; omega

theorem complete_inv (h : MidPoll s) (hp : s.phase = .awaitingBody) : Inv (complete s) := by
  have hend (st : Status) : Inv (finish st s) := h.finish_inv st (by simp [hp])
  obtain ⟨-, he⟩ | ⟨-, he⟩ := complete_cases s <;> rw [he]
  · obtain ⟨regs, hd, hread, hregs⟩ | ⟨hd, -⟩ := disassemble_cases s <;> rw [hd]
    · exact { hend .success with
        bankLenCap := disasm_length_le hregs
        bankValid := fun _ => ⟨rfl, rfl, hread⟩ }
    · exact hend .success
  · exact hend .invalidCrc

theorem HeaderPassed.append (b : Byte) (h : HeaderPassed s) : HeaderPassed (rxAppend b s) := by
  obtain ⟨hlen, hslave, hfc, hbit⟩ := h
  have hbyte (i : Nat) (hi : i < 5) : rxByte (rxAppend b s) i = rxByte s i := rxByte_rxAppend_ne (by omega)
  refine ⟨Nat.le_succ_of_le hlen, ?_, ?_, ?_⟩
  · rwa [hbyte 0 (by decide)]
  · rwa [hbyte 1 (by decide)]
  · rwa [hbyte 1 (by decide)]

/-- A lacking byte may be appended (R132). -/
theorem MidPoll.append (b : Byte) (h : MidPoll s) (hl : LacksByte s) : MidPoll (rxAppend b s) where
  phase := h.phase
  header hp := ⟨(h.header hp).1, hl.1 hp⟩
  body hp := by
    obtain ⟨hpassed, n, hn, hmin, hmax, hle⟩ := h.body hp
    exact ⟨hpassed.append b, n, hn, hmin, hmax, Nat.lt_of_le_of_ne hle fun he => hl.2 hp (he ▸ hn)⟩
  status := h.status
  bankLen := h.bankLen
  request := h.request
  frameCap := h.frameCap
  txIdxCap := h.txIdxCap
  drainBound := h.drainBound

/-- Every response has 5 to 260 bytes (R26, R78). -/
theorem responseLength_range {fc byteCount : Byte} {n : Nat} (h : responseLength fc byteCount = some n) :
    5 ≤ n ∧ n ≤ rxCap := by
  have hlt := byteCount.isLt
  unfold responseLength at h
  split at h <;> cases h <;> simp only [rxCap] <;> omega

/-- The header check ends the transaction, or goes on to the body with the header passed. -/
theorem headerCheck_inv_or_midPoll (h : MidPoll s) (hlen : s.rxLen = 5)
    (he : headerCheck s = .next t) : Inv t ∨ (MidPoll t ∧ t.phase = .awaitingBody) := by
  obtain ⟨hslave, rfl⟩ | ⟨-, hfc, rfl⟩ | ⟨-, -, hbit, rfl⟩ | ⟨hslave, hfc, hbit, n, hn, rfl⟩ := headerCheck_cases he
  · exact .inl (h.finish_inv _ fun _ ⟨_, hs, _⟩ => hslave hs)
  · exact .inl (h.finish_inv _ fun _ ⟨_, _, hf, _⟩ => hfc hf)
  · exact .inl (h.finish_inv _ fun _ ⟨_, _, _, hb⟩ => by simp [hbit] at hb)
  · obtain ⟨hmin, hmax⟩ := responseLength_range hn
    refine .inr ⟨{ h with phase := .inr rfl, header := nofun, body := fun _ => ?_ }, rfl⟩
    exact ⟨⟨Nat.le_of_eq hlen.symm, hslave, hfc, hbit⟩, n, rfl, hmin, hmax, by simpa [hlen] using hmin⟩

/-- The header check is made at the fifth byte of a header, and not before (R131). -/
theorem headerStage_cases (h : headerStage s = .next t) :
    (s.phase = .awaitingHeader ∧ s.rxLen = 5 ∧ headerCheck s = .next t) ∨
    (¬ (s.phase = .awaitingHeader ∧ s.rxLen = 5) ∧ t = s) := by
  unfold headerStage at h
  split at h
  case isTrue hc => exact .inl ⟨hc.1, hc.2, h⟩
  case isFalse hc => injection h with h; exact .inr ⟨hc, h.symm⟩

/-- The completion is made at the last byte of a body, and not before (R131). -/
theorem completeStage_cases (s : State) :
    (s.phase = .awaitingBody ∧ s.expected = some s.rxLen ∧ completeStage s = complete s) ∨
    (¬ (s.phase = .awaitingBody ∧ s.expected = some s.rxLen) ∧ completeStage s = s) := by
  unfold completeStage
  split
  case isTrue hc => exact .inl ⟨hc.1, hc.2, rfl⟩
  case isFalse hc => exact .inr ⟨hc, rfl⟩

theorem completeStage_of_lacksByte (h : LacksByte s) : completeStage s = s :=
  if_neg fun hc => h.2 hc.1 hc.2

/-- The body is complete, or a byte is still lacking. -/
theorem completeStage_inv (h : MidPoll s) (hshort : s.phase = .awaitingHeader → s.rxLen < 5) :
    Inv (completeStage s) := by
  obtain ⟨hp, -, he⟩ | ⟨hopen, he⟩ := completeStage_cases s <;> rw [he]
  · exact complete_inv h hp
  · exact h.inv ⟨hshort, fun hp hexp => hopen ⟨hp, hexp⟩⟩

theorem takeByte_inv {b : Byte} (h : MidPoll s) (hl : LacksByte s) (he : takeByte b s = .next t) : Inv t := by
  obtain ⟨-, m, hm, rfl⟩ := takeByte_cases he
  have hmid : MidPoll (rxAppend b s) := h.append b hl
  obtain ⟨-, hlen, hm⟩ | ⟨hshort, rfl⟩ := headerStage_cases hm
  · obtain hinv | ⟨hbody, hp⟩ := headerCheck_inv_or_midPoll hmid hlen hm
    · rwa [completeStage_of_lacksByte hinv.lacksByte]
    · exact completeStage_inv hbody (by simp [hp])
  · exact completeStage_inv hmid fun hp => Nat.lt_of_le_of_ne (hmid.header hp).2 fun hlen => hshort ⟨hp, hlen⟩

theorem poll_inv (h : Inv s) (hr : receiving s = true) (he : poll s = .next t) : Inv t := by
  obtain ⟨-, rfl⟩ | ⟨-, -, rfl⟩ | ⟨-, b, rest, -, he⟩ := poll_cases he
  · refine (h.midPoll hr).finish_inv _ fun hp ⟨hlen, _⟩ => ?_
    exact Nat.not_lt.mpr hlen (h.headerLen hp)
  · exact tryRead_inv h
  · exact takeByte_inv ((tryRead_inv h).midPoll hr) (tryRead_inv h).lacksByte he

theorem engineStep_inv (h : Inv s) (he : engineStep s = .next t) : Inv t := by
  obtain ⟨-, heq⟩ | ⟨hp, heq⟩ | ⟨hr, heq⟩ := engineStep_cases s <;> rw [heq] at he
  · injection he with he
    exact he ▸ h
  · exact sendingStep_inv h hp he
  · exact poll_inv h hr he

theorem takeTurn_inv {u : Turn} (h : Inv s) (he : takeTurn u s = .next t) : Inv t := by
  obtain ⟨c, i, -, -, he⟩ | ⟨-, he⟩ | ⟨-, rfl⟩ | ⟨b, -, rfl⟩ | ⟨cfg, -, rfl⟩ := takeTurn_cases he
  · exact exec_inv h he
  · exact engineStep_inv h he
  · exact tick_inv h
  · exact arrive_inv b h
  · exact powerOn_inv _ _ _ _

theorem step_inv (h : Inv s) (he : step s = .next t) : Inv t := by
  cases hs : s.schedule with
  | nil =>
    rw [step_of_schedule_nil hs] at he
    injection he with he
    exact he ▸ h
  | cons u rest =>
    rw [step_of_schedule_cons hs] at he
    exact takeTurn_inv (setSchedule_inv rest h) he

theorem Reachable.inv (h : Reachable s) : Inv s := by
  induction h with
  | powerOn cfg pending schedule => exact powerOn_inv cfg pending false schedule
  | turn u s t _ he ih => exact takeTurn_inv ih he
  | scheduled s t _ he ih => exact step_inv ih he

/-- The step invariant implies the spec's list. -/
theorem Inv.ruleR39 (h : Inv s) : RuleR39 s where
  i1 hp := Nat.le_of_lt (h.headerLen hp)
  i2 hp := by
    obtain ⟨n, hn, hlt⟩ := h.bodyLen hp
    exact ⟨n, hn, Nat.le_of_lt hlt, (h.expectedRange n hn).2.1⟩
  i3 := h.rxLenCap
  i4 := h.bankLenCap
  i5 := h.statusIff
  i6 := h.bankValid
  i7 := h.expectedIff

/-- Beside the spec's list (R174, R210): a bank that holds registers is a successful read's. -/
theorem Inv.bankLen_eq_zero (h : Inv s) (hn : s.status ≠ some .success ∨ readCode s.reqFc = false) :
    s.bankLen = 0 := by
  refine Nat.eq_zero_of_not_pos fun hb => ?_
  obtain ⟨-, hsuccess, hread⟩ := h.bankValid hb
  obtain hn | hn := hn
  · exact hn hsuccess
  · rw [hread] at hn; cases hn

end

theorem readCode_of_write {fc : Byte} (h : IsPlainWrite fc ∨ IsMaskWrite fc) : readCode fc = false := by
  obtain (rfl | rfl | rfl | rfl) | rfl := h <;> rfl

/-- Settles O44: the invariant of the turn the step takes, with the schedule shortened. -/
theorem everyStepKeepsTheStepInvariant : Obligations.EveryStepKeepsTheStepInvariant := fun _ _ => step_inv

/-- Settles O45: the step invariant holds in every reachable state, by induction on how it is reached. -/
theorem ruleR39HoldsInEveryReachableState : Obligations.RuleR39HoldsInEveryReachableState := by
  intro s hs
  exact ⟨hs.inv.ruleR39, fun _ hn => hs.inv.bankLen_eq_zero (hn.imp_right readCode_of_write)⟩

end Sys2Proof.Machine

/-! What a turn short of a reset can do to the bank, the phase and the status (10_state.md R21, R29, R30). -/

namespace Sys2Proof.Machine

section
variable {s t : State}

/-- No step of `Sending` writes the bank, and `Sending` is left for `AwaitingHeader` only (R124, R130). -/
structure SendingKeeps (s t : State) : Prop where
  phase : t.phase = s.phase ∨ t.phase = .awaitingHeader
  bank : t.bank = s.bank

theorem drain_sendingKeeps (s : State) : SendingKeeps s (drain s) := by
  obtain ⟨-, he⟩ | ⟨-, -, he⟩ | ⟨-, -, he⟩ := drain_cases s <;> rw [he] <;> exact ⟨.inl rfl, rfl⟩

theorem preHook_sendingKeeps (s : State) : SendingKeeps s (preHook s) :=
  ⟨.inl (callPreHook_phase s), callPreHook_bank s⟩

theorem tx_sendingKeeps (h : tx s = .next t) : SendingKeeps s t := by
  obtain ⟨b, -, rfl⟩ := tx_cases h
  exact ⟨.inl rfl, rfl⟩

theorem postHook_sendingKeeps (s : State) : SendingKeeps s (postHook s) :=
  ⟨.inl (callPostHook_phase s), callPostHook_bank s⟩

theorem settle_sendingKeeps (s : State) : SendingKeeps s (settle s) := by
  obtain ⟨-, he⟩ | ⟨-, he⟩ := settle_cases s <;> rw [he]
  · exact ⟨.inl rfl, rfl⟩
  · exact ⟨.inr rfl, rfl⟩

theorem sendingStep_sendingKeeps (h : sendingStep s = .next t) : SendingKeeps s t := by
  unfold sendingStep at h
  split at h
  case h_3 => exact tx_sendingKeeps h
  all_goals injection h with h; subst h
  · exact drain_sendingKeeps s
  · exact preHook_sendingKeeps s
  · exact ⟨.inl rfl, rfl⟩
  · exact postHook_sendingKeeps s
  · exact settle_sendingKeeps s

/-- The bank is written only where a read ends in success (R30, R170). -/
def BankKeptOrReadDone (s t : State) : Prop :=
  t.bank = s.bank ∨ (t.phase = .done ∧ t.status = some .success ∧ readCode t.reqFc = true)

theorem complete_bank (s : State) : BankKeptOrReadDone s (complete s) := by
  obtain ⟨-, he⟩ | ⟨-, he⟩ := complete_cases s <;> rw [he]
  · obtain ⟨regs, hd, hread, -⟩ | ⟨hd, -⟩ := disassemble_cases s <;> rw [hd]
    · exact .inr ⟨rfl, rfl, hread⟩
    · exact .inl rfl
  · exact .inl rfl

theorem completeStage_bank (s : State) : BankKeptOrReadDone s (completeStage s) := by
  obtain ⟨-, -, he⟩ | ⟨-, he⟩ := completeStage_cases s <;> rw [he]
  · exact complete_bank s
  · exact .inl rfl

theorem headerStage_bank (h : headerStage s = .next t) : t.bank = s.bank := by
  obtain ⟨-, -, h⟩ | ⟨-, rfl⟩ := headerStage_cases h
  · obtain ⟨-, rfl⟩ | ⟨-, -, rfl⟩ | ⟨-, -, -, rfl⟩ | ⟨-, -, -, n, -, rfl⟩ := headerCheck_cases h <;> rfl
  · rfl

theorem poll_bank (h : poll s = .next t) : BankKeptOrReadDone s t := by
  obtain ⟨-, rfl⟩ | ⟨-, -, rfl⟩ | ⟨-, b, rest, -, h⟩ := poll_cases h
  · exact .inl rfl
  · exact .inl rfl
  · obtain ⟨-, m, hm, rfl⟩ := takeByte_cases h
    have hbank : m.bank = (rxAppend b (tryRead s)).bank := headerStage_bank hm
    exact (completeStage_bank m).imp_left (·.trans hbank)

/-- The engine writes the bank in a poll that ends a read in success, and nowhere else. -/
theorem engineStep_bank (h : engineStep s = .next t) (hb : t.bank ≠ s.bank) :
    receiving s = true ∧ t.phase = .done ∧ t.status = some .success ∧ readCode t.reqFc = true := by
  obtain ⟨-, he⟩ | ⟨-, he⟩ | ⟨hr, he⟩ := engineStep_cases s <;> rw [he] at h
  · injection h with h
    exact absurd (congrArg State.bank h.symm) hb
  · exact absurd (sendingStep_sendingKeeps h).bank hb
  · exact ⟨hr, (poll_bank h).resolve_left hb⟩

/-- No instruction writes the bank. -/
theorem exec_bank {i : Instr} (h : exec i s = .next t) : t.bank = s.bank := by
  by_cases hi : IsExceptionResponse i
  · obtain ⟨slave, fc, code, crcLo, crcHi, rfl⟩ := hi
    injection h with h
    exact h ▸ rfl
  · exact (exec_callerKeeps hi h).bank

theorem isRead_of_readCode {fc : Byte} (h : readCode fc = true) : IsBitRead fc ∨ IsWordRead fc := by
  unfold IsBitRead IsWordRead
  revert fc
  decide

/-- Settles O38: of all turns only the engine's writes the bank, where its poll ends a read in success. -/
theorem onlyASuccessfulReadWritesTheBank : Obligations.OnlyASuccessfulReadWritesTheBank := by
  intro u s t hu h hb
  obtain ⟨c, i, -, -, h⟩ | ⟨rfl, h⟩ | ⟨-, rfl⟩ | ⟨b, -, rfl⟩ | ⟨cfg, rfl, -⟩ := takeTurn_cases h
  · exact absurd (exec_bank h) hb
  · obtain ⟨hr, hphase, hstatus, hread⟩ := engineStep_bank h hb
    exact ⟨rfl, hr, hphase, hstatus, isRead_of_readCode hread⟩
  · exact absurd rfl hb
  · exact absurd rfl hb
  · exact absurd rfl (hu cfg)

/-- An instruction or a turn keeps the phase and the status. -/
def KeepsPhaseAndStatus (s t : State) : Prop := t.phase = s.phase ∧ t.status = s.status

/-- The instruction started a transaction, at Idle or Done: it was EXEC or a request (R120, R150 to R159). -/
def Starts (i : Instr) (s t : State) : Prop :=
  ∃ slave fc start qty extra, AsksFor i slave fc start qty extra ∧ (s.phase = .idle ∨ s.phase = .done) ∧
    t = answer .started (launch (buildFrame slave fc start qty extra) (latchRequest slave fc s))

theorem exec_keepsPhase_or_starts {i : Instr} (h : exec i s = .next t) : KeepsPhaseAndStatus s t ∨ Starts i s t := by
  obtain (⟨r, rfl⟩ | ⟨c, rfl⟩) | ⟨slave, fc, start, qty, extra, ha, h⟩ | ⟨slave, fc, code, crcLo, crcHi, -, rfl⟩ :=
    exec_cases h
  · exact .inl ⟨rfl, rfl⟩
  · exact .inl ⟨rfl, rfl⟩
  · obtain ⟨c, rfl, -⟩ | ⟨hb, -, -, rfl⟩ := startTransaction_cases h
    · exact .inl ⟨rfl, rfl⟩
    · exact .inr ⟨slave, fc, start, qty, extra, ha, not_busy_iff.mp hb, rfl⟩
  · exact .inl ⟨rfl, rfl⟩

/-- Short of a reset, a turn keeps the phase and the status, is the engine's, or starts a transaction. -/
theorem takeTurn_phase_cases {u : Turn} (hu : ∀ cfg, u ≠ .reset cfg) (h : takeTurn u s = .next t) :
    KeepsPhaseAndStatus s t ∨ (u = .engine ∧ engineStep s = .next t) ∨
    ∃ c i, u = .command c ∧ decode c = .ok i ∧ Starts i s t := by
  obtain ⟨c, i, rfl, hc, h⟩ | ⟨rfl, h⟩ | ⟨-, rfl⟩ | ⟨b, -, rfl⟩ | ⟨cfg, rfl, -⟩ := takeTurn_cases h
  · exact (exec_keepsPhase_or_starts h).imp_right fun hs => .inr ⟨c, i, rfl, hc, hs⟩
  · exact .inr (.inl ⟨rfl, h⟩)
  · exact .inl ⟨rfl, rfl⟩
  · exact .inl ⟨rfl, rfl⟩
  · exact absurd rfl (hu cfg)

/-- At Idle and Done the engine has no step (R137). -/
theorem engineStep_keeps_or_busy (h : engineStep s = .next t) : t = s ∨ busy s = true := by
  obtain ⟨-, he⟩ | ⟨hp, -⟩ | ⟨hr, -⟩ := engineStep_cases s
  · rw [he] at h
    injection h with h
    exact .inl h.symm
  · exact .inr (busy_iff.mpr (.inl hp))
  · exact .inr (busy_iff.mpr (.inr (receiving_iff.mp hr)))

/-- The engine ends a transaction by a poll only (R131). -/
theorem engineStep_done_receiving (h : engineStep s = .next t) (hs : s.phase ≠ .done) (ht : t.phase = .done) :
    receiving s = true := by
  obtain ⟨-, he⟩ | ⟨hp, he⟩ | ⟨hr, -⟩ := engineStep_cases s
  · rw [he] at h
    injection h with h
    exact absurd (h ▸ ht) hs
  · rw [he] at h
    have hphase := (sendingStep_sendingKeeps h).phase
    simp [ht, hp] at hphase
  · exact hr

/-- A launch ends the transaction at once exactly where there is no frame (R123). -/
theorem launch_done {frame : Option (List Byte)} (h : (launch frame s).phase = .done) :
    frame = none ∧ (launch frame s).status = some .buildOverflow := by
  cases frame with
  | none => exact ⟨rfl, rfl⟩
  | some f => cases h

end

/-- What can change the phase or the status, short of a reset. -/
theorem phaseOrStatus_changed_by {u : Turn} {s t : State} (hu : ∀ cfg, u ≠ .reset cfg)
    (h : takeTurn u s = .next t) (hne : t.phase ≠ s.phase ∨ t.status ≠ s.status) :
    (u = .engine ∧ busy s = true) ∨
    (∃ c i slave fc start qty extra, u = .command c ∧ decode c = .ok i ∧ AsksFor i slave fc start qty extra ∧
      (s.phase = .idle ∨ s.phase = .done)) := by
  obtain ⟨hp, hst⟩ | ⟨rfl, h⟩ | ⟨c, i, rfl, hc, slave, fc, start, qty, extra, ha, hphase, -⟩ :=
    takeTurn_phase_cases hu h
  · exact absurd hne (by simp [hp, hst])
  · obtain rfl | hb := engineStep_keeps_or_busy h
    · exact absurd hne (by simp)
    · exact .inl ⟨rfl, hb⟩
  · exact .inr ⟨c, i, slave, fc, start, qty, extra, rfl, hc, ha, hphase⟩

/-- What can end a transaction, short of a reset. -/
theorem transaction_ended_by {u : Turn} {s t : State} (hu : ∀ cfg, u ≠ .reset cfg)
    (h : takeTurn u s = .next t) (hs : s.phase ≠ .done) (ht : t.phase = .done) :
    (u = .engine ∧ receiving s = true) ∨
    (∃ c i slave fc start qty extra, u = .command c ∧ decode c = .ok i ∧ AsksFor i slave fc start qty extra ∧
      s.phase = .idle ∧ 248 < extra.length ∧ t.status = some .buildOverflow) := by
  obtain ⟨hp, -⟩ | ⟨rfl, h⟩ | ⟨c, i, rfl, hc, slave, fc, start, qty, extra, ha, hphase, rfl⟩ :=
    takeTurn_phase_cases hu h
  · exact absurd (hp.symm.trans ht) hs
  · exact .inl ⟨rfl, engineStep_done_receiving h hs ht⟩
  · obtain ⟨hnone, hoverflow⟩ := launch_done ht
    exact .inr ⟨c, i, slave, fc, start, qty, extra, rfl, hc, ha, hphase.resolve_right hs,
      buildFrame_none_iff.mp hnone, hoverflow⟩

/-- Settles O40: what can change the phase, what can end a transaction, and the equations of a tick and an arrival. -/
theorem phaseAndStatusChangeOnlyByTheEngineOrARequest :
    Obligations.PhaseAndStatusChangeOnlyByTheEngineOrARequest :=
  ⟨fun _ _ _ => phaseOrStatus_changed_by, fun _ _ _ => transaction_ended_by, takeTurn_tick, fun s b => takeTurn_arrive b s⟩

end Sys2Proof.Machine

/-! The refusals of the reading commands (10_state.md R35, 30_encoding.md R88, 42_transaction.md R144). -/

namespace Sys2Proof.Machine

section
variable {s : State}

theorem execResult_of_busy (h : busy s = true) : execResult s = .next (refuse .busy s) := if_pos h

theorem execBankRead_of_busy (i : Nat) (h : busy s = true) : execBankRead i s = .next (refuse .busy s) := if_pos h

theorem execDecode_of_busy (start : Nat) (enc : Byte) (h : busy s = true) :
    execDecode start enc s = .next (refuse .busy s) := if_pos h

theorem decodeTyped_of_busy (ty : NumType) (start : Nat) (order : Order) (h : busy s = true) :
    decodeTyped ty start order s = .next (refuse .busy s) := if_pos h

/-- DECODE and each of the eight rows are refused while busy (R180). -/
theorem exec_decodesAs_of_busy {i : Instr} {ty : NumType} {start : Nat} {order : Order}
    (hi : DecodesAs i ty start order) (h : busy s = true) : exec i s = .next (refuse .busy s) := by
  obtain rfl | ⟨rfl, rfl⟩ | ⟨rfl, rfl⟩ | ⟨rfl, rfl⟩ | ⟨rfl, rfl⟩ | ⟨rfl, rfl⟩ | ⟨rfl, rfl⟩ | ⟨rfl, rfl⟩ | ⟨rfl, rfl⟩ := hi
  · exact execDecode_of_busy start _ h
  all_goals exact decodeTyped_of_busy _ start order h

theorem execResult_of_idle (h : s.phase = .idle) : execResult s = .next (refuse .noResult s) := by
  simp [execResult, busy, h]

theorem execDecode_of_reserved {start : Nat} {enc : Byte} (hb : busy s = false) (h : descriptorOf enc = none) :
    execDecode start enc s = .next (refuse .reservedDescriptor s) := by
  simp [execDecode, hb, h]

end

theorem typeOfCodes_width3 (kind : Nat) : typeOfCodes 3 kind = none := by simp [typeOfCodes]

theorem typeOfCodes_kind3 (width : Nat) : typeOfCodes width 3 = none := by simp [typeOfCodes]

/-- The low four bits of a 16-bit float's descriptor are kind code 2 and width code 0 (R190). -/
theorem codes_of_f16 {enc : Byte} (h : enc &&& 0x0F#8 = 0x08#8) : widthCode enc = 0 ∧ kindCode enc = 2 := by
  revert enc
  decide

/-- A descriptor without a legal type is reserved (R88). -/
theorem descriptorOf_of_noType {enc : Byte} (h : typeOfCodes (widthCode enc) (kindCode enc) = none) :
    descriptorOf enc = none := by
  simp [descriptorOf, h]

/-- The four kinds of reserved descriptor (R84, R88). -/
theorem descriptorOf_reserved {enc : Byte}
    (h : enc.extractLsb' 6 2 ≠ 0#2 ∨ enc.extractLsb' 0 2 = 3#2 ∨ enc.extractLsb' 2 2 = 3#2 ∨
      enc &&& 0x0F#8 = 0x08#8) : descriptorOf enc = none := by
  obtain hreserved | hwidth | hkind | hf16 := h
  · exact if_pos fun h0 => hreserved (BitVec.eq_of_toNat_eq h0)
  · refine descriptorOf_of_noType ?_
    rw [widthCode, hwidth]
    exact typeOfCodes_width3 _
  · refine descriptorOf_of_noType ?_
    rw [kindCode, hkind]
    exact typeOfCodes_kind3 _
  · obtain ⟨hw, hk⟩ := codes_of_f16 hf16
    refine descriptorOf_of_noType ?_
    rw [hw, hk]
    rfl

/-- Settles O15: busy is tested first in each reading command; then RESULT tests Idle, and DECODE its descriptor. -/
theorem readersAreRefusedWhileBusy : Obligations.ReadersAreRefusedWhileBusy := by
  refine ⟨fun s hp => ?_, fun s hp => execResult_of_idle hp, fun s start enc hp henc => ?_⟩
  · have hb : busy s = true := busy_iff.mpr hp
    exact ⟨execResult_of_busy hb, fun i => execBankRead_of_busy i hb, fun start enc => execDecode_of_busy start enc hb,
      fun i ty start order hi => exec_decodesAs_of_busy hi hb⟩
  · exact execDecode_of_reserved (not_busy_iff.mpr hp) (descriptorOf_reserved henc)

end Sys2Proof.Machine

/-! Power-on (10_state.md R38). -/

namespace Sys2Proof.Machine

/-- The platform's configuration has a deadline and a drain bound of at least 1 (R32). -/
theorem platformCfg_legal : Config.platformCfg.Legal := ⟨Nat.le_add_left 1 _, Nat.le_add_left 1 _⟩

/-- Settles O42: a reset leads to the power-on state of its configuration, with `pending` as it was. -/
theorem resetGivesTheSpecsValuesAndKeepsPending : Obligations.ResetGivesTheSpecsValuesAndKeepsPending := by
  refine ⟨fun s cfg => ⟨resetBlock cfg s, takeTurn_reset cfg s, ?_⟩, ?_⟩
  · exact ⟨rfl, rfl, rfl, rfl, rfl, rfl, rfl, rfl, rfl, rfl, rfl, rfl, rfl⟩
  · exact ⟨rfl, rfl, rfl, rfl, rfl, rfl, rfl, rfl, rfl, rfl, rfl, platformCfg_legal⟩

end Sys2Proof.Machine

/-! BUILD's frame, field by field (20_memory.md R53, 30_encoding.md R72). -/

namespace Sys2Proof.Machine

section
variable {slave fc : Byte} {start qty : Reg} {extra : List Byte}

theorem requestBody_eq_wireBody : requestBody slave fc start qty extra = wireBody slave fc start qty extra := rfl

theorem appendCrc_eq_withWireCrc (body : List Byte) : appendCrc body = withWireCrc body := rfl

/-- A payload of at most 248 bytes gets its frame, whatever the slave and the code are (R110, R113). -/
theorem buildFrame_of_fits (h : extra.length ≤ 248) :
    buildFrame slave fc start qty extra = some (withWireCrc (wireBody slave fc start qty extra)) := by
  cases hf : buildFrame slave fc start qty extra with
  | none => exact absurd (buildFrame_none_iff.mp hf) (Nat.not_lt.mpr h)
  | some f =>
    rw [(buildFrame_some hf).2, requestBody_eq_wireBody, appendCrc_eq_withWireCrc]

theorem withWireCrc_wireBody_length :
    (withWireCrc (wireBody slave fc start qty extra)).length = 8 + extra.length := by
  rw [← appendCrc_eq_withWireCrc, ← requestBody_eq_wireBody, appendCrc_length, requestBody_length]
  omega

theorem execBuild_of_some {f : List Byte} (h : buildFrame slave fc start qty extra = some f) (s : State) :
    execBuild slave fc start qty extra s = .next (answer (.frame f) s) := by
  rw [execBuild, h]

theorem execBuild_of_none (h : buildFrame slave fc start qty extra = none) (s : State) :
    execBuild slave fc start qty extra s = .next (answer (.error .buildOverflow) s) := by
  rw [execBuild, h]

end

/-- Settles O7: BUILD fails exactly past 248 payload bytes, and its body and CRC are the wire's. -/
theorem buildAnswersTheFrameOrOverflows : Obligations.BuildAnswersTheFrameOrOverflows := by
  refine ⟨fun s slave fc start qty extra hlen => ⟨?_, withWireCrc_wireBody_length, ?_⟩,
    fun s slave fc start qty extra hlen => ?_⟩
  · exact execBuild_of_some (buildFrame_of_fits hlen) s
  · omega
  · exact execBuild_of_none (buildFrame_none_iff.mpr hlen) s

end Sys2Proof.Machine

/-! The commands that only answer (20_memory.md R61). -/

namespace Sys2Proof.Machine

section
variable {s t : State}

theorem OnlyAnswers.sameBlock (h : OnlyAnswers s t) : SameBlock s t := by
  obtain ⟨r, rfl⟩ | ⟨c, rfl⟩ := h
  · rfl
  · rfl

/-- DECODE and each of the eight rows only answer (R180, R199). -/
theorem exec_decodesAs_onlyAnswers {i : Instr} {ty : NumType} {start : Nat} {order : Order}
    (hi : DecodesAs i ty start order) (h : exec i s = .next t) : OnlyAnswers s t := by
  obtain rfl | ⟨rfl, rfl⟩ | ⟨rfl, rfl⟩ | ⟨rfl, rfl⟩ | ⟨rfl, rfl⟩ | ⟨rfl, rfl⟩ | ⟨rfl, rfl⟩ | ⟨rfl, rfl⟩ | ⟨rfl, rfl⟩ := hi
  · exact execDecode_onlyAnswers h
  all_goals exact decodeTyped_onlyAnswers h

end

/-- Settles O24: each of these instructions only answers, by the lemma about its meaning. -/
theorem readingCommandsChangeNothingOfTheBlock : Obligations.ReadingCommandsChangeNothingOfTheBlock := by
  intro s t i hi h
  refine OnlyAnswers.sameBlock ?_
  obtain ⟨data, rfl⟩ | ⟨frame, rfl⟩ | ⟨slave, fc, start, qty, extra, rfl⟩ | rfl | ⟨k, rfl⟩ | ⟨start, enc, rfl⟩ | rfl |
    ⟨start, order, rfl⟩ | ⟨ty, start, order, hdec⟩ := hi
  · exact onlyAnswers_of_answer h
  · exact onlyAnswers_of_answer h
  · exact execBuild_onlyAnswers h
  · exact execResult_onlyAnswers h
  · exact execBankRead_onlyAnswers h
  · exact execDecode_onlyAnswers h
  · exact onlyAnswers_of_refuse h
  · exact onlyAnswers_of_refuse h
  · exact exec_decodesAs_onlyAnswers hdec h

end Sys2Proof.Machine

/-! The request in flight and the configuration (20_memory.md R65, 10_state.md R23, R32). -/

namespace Sys2Proof.Machine

/-- The latched request and its frame are as before (R23, R24). -/
structure RequestKept (s t : State) : Prop where
  reqSlave : t.reqSlave = s.reqSlave
  reqFc : t.reqFc = s.reqFc
  txf : t.txf = s.txf

section
variable {s t : State}

/-- While busy an instruction starts no transaction, so it keeps the request in flight (R121). -/
theorem exec_requestKept {i : Instr} (hb : busy s = true) (h : exec i s = .next t) : RequestKept s t := by
  obtain (⟨r, rfl⟩ | ⟨c, rfl⟩) | ⟨slave, fc, start, qty, extra, -, h⟩ | ⟨slave, fc, code, crcLo, crcHi, -, rfl⟩ :=
    exec_cases h
  · exact ⟨rfl, rfl, rfl⟩
  · exact ⟨rfl, rfl, rfl⟩
  · obtain ⟨c, rfl, -⟩ | ⟨hidle, -⟩ := startTransaction_cases h
    · exact ⟨rfl, rfl, rfl⟩
    · exact absurd (hb.symm.trans hidle) nofun
  · exact ⟨rfl, rfl, rfl⟩

theorem EngineKeeps.requestKept (h : EngineKeeps s t) : RequestKept s t := ⟨h.reqSlave, h.reqFc, h.txf⟩

theorem takeTurn_requestKept {u : Turn} (hu : ∀ cfg, u ≠ .reset cfg) (hb : busy s = true)
    (h : takeTurn u s = .next t) : RequestKept s t := by
  obtain ⟨c, i, -, -, h⟩ | ⟨-, h⟩ | ⟨-, rfl⟩ | ⟨b, -, rfl⟩ | ⟨cfg, rfl, -⟩ := takeTurn_cases h
  · exact exec_requestKept hb h
  · exact (engineStep_engineKeeps h).requestKept
  · exact ⟨rfl, rfl, rfl⟩
  · exact ⟨rfl, rfl, rfl⟩
  · exact absurd rfl (hu cfg)

/-- No instruction writes the configuration. -/
theorem exec_cfg {i : Instr} (h : exec i s = .next t) : t.cfg = s.cfg := by
  by_cases hi : IsExceptionResponse i
  · obtain ⟨slave, fc, code, crcLo, crcHi, rfl⟩ := hi
    injection h with h
    exact h ▸ rfl
  · exact (exec_callerKeeps hi h).cfg

theorem takeTurn_cfg {u : Turn} (hu : ∀ cfg, u ≠ .reset cfg) (h : takeTurn u s = .next t) : t.cfg = s.cfg := by
  obtain ⟨c, i, -, -, h⟩ | ⟨-, h⟩ | ⟨-, rfl⟩ | ⟨b, -, rfl⟩ | ⟨cfg, rfl, -⟩ := takeTurn_cases h
  · exact exec_cfg h
  · exact (engineStep_engineKeeps h).cfg
  · rfl
  · rfl
  · exact absurd rfl (hu cfg)

end

/-- Settles O39: while busy no turn latches a request, and only a reset writes the configuration. -/
theorem requestInFlightCannotBeChanged : Obligations.RequestInFlightCannotBeChanged := by
  refine ⟨fun u s t hu hb h => ?_, fun u s t hu h => takeTurn_cfg hu h⟩
  obtain ⟨hslave, hfc, htxf⟩ := takeTurn_requestKept hu hb h
  exact ⟨hslave, hfc, htxf⟩

end Sys2Proof.Machine

/-! What the engine reads from the transport (20_memory.md R59). -/

namespace Sys2Proof.Machine

/-- No call to the outside world was made: the transport and the event log are as before (R33, R34). -/
structure MakesNoCall (s t : State) : Prop where
  pending : t.pending = s.pending
  sent : t.sent = s.sent
  events : t.events = s.events

/-- The transport was not read: `pending` is as before, and no read joined the log. -/
structure MakesNoRead (s t : State) : Prop where
  pending : t.pending = s.pending
  events : ∀ r, Event.read r ∈ t.events → Event.read r ∈ s.events

/-- At most the first pending byte is gone. -/
def TakesAtMostOneByte (s t : State) : Prop := t.pending = s.pending ∨ ∃ b, s.pending = b :: t.pending

/-- The engine is at one of the steps that read the transport: the drain or a poll (R59). -/
def AtReadingStep (s : State) : Prop := (s.phase = .sending ∧ s.sendStep = .drain) ∨ receiving s = true

section
variable {s t u : State}

theorem readAnswer_of_nonempty {b : Byte} {rest : List Byte} (h : s.pending = b :: rest) : readAnswer s = some b := by
  rw [readAnswer, h, List.head?_cons]

theorem tryRead_of_nonempty {b : Byte} {rest : List Byte} (h : s.pending = b :: rest) :
    tryRead s = { s with pending := rest, events := s.events ++ [.read (some b)] } := by
  simp [tryRead, logEvent, h]

theorem readAnswer_of_empty (h : s.pending = []) : readAnswer s = none := by
  rw [readAnswer, h, List.head?_nil]

/-- On an empty queue only the log grows. -/
theorem tryRead_of_empty (h : s.pending = []) : tryRead s = { s with events := s.events ++ [.read none] } := by
  simp [tryRead, logEvent, h]

theorem tryRead_takesAtMostOneByte (s : State) : TakesAtMostOneByte s (tryRead s) := by
  cases hp : s.pending with
  | nil => exact .inl (by rw [tryRead_pending, hp]; rfl)
  | cons b rest => exact .inr ⟨b, by rw [tryRead_pending, hp]; rfl⟩

theorem MakesNoCall.refl (s : State) : MakesNoCall s s := ⟨rfl, rfl, rfl⟩

theorem MakesNoCall.trans (h : MakesNoCall s t) (h' : MakesNoCall t u) : MakesNoCall s u where
  pending := h'.pending.trans h.pending
  sent := h'.sent.trans h.sent
  events := h'.events.trans h.events

theorem MakesNoCall.makesNoRead (h : MakesNoCall s t) : MakesNoRead s t :=
  ⟨h.pending, fun _ hr => h.events ▸ hr⟩

/-- The one call logged, if any, was no read. -/
theorem makesNoRead_of_events {es : List Event} (hp : t.pending = s.pending) (he : t.events = s.events ++ es)
    (hes : ∀ r, Event.read r ∉ es) : MakesNoRead s t :=
  ⟨hp, fun r hr => (List.mem_append.mp (he ▸ hr)).resolve_right (hes r)⟩

/-! After its read, a poll makes no call. -/

theorem disassemble_makesNoCall (s : State) : MakesNoCall s (disassemble s) := by
  obtain ⟨regs, h, -⟩ | ⟨h, -⟩ := disassemble_cases s <;> rw [h]
  · exact ⟨rfl, rfl, rfl⟩
  · exact .refl s

theorem finish_makesNoCall (st : Status) (s : State) : MakesNoCall s (finish st s) := ⟨rfl, rfl, rfl⟩

theorem complete_makesNoCall (s : State) : MakesNoCall s (complete s) := by
  obtain ⟨-, h⟩ | ⟨-, h⟩ := complete_cases s <;> rw [h]
  · exact (disassemble_makesNoCall s).trans (finish_makesNoCall _ _)
  · exact finish_makesNoCall _ s

theorem completeStage_makesNoCall (s : State) : MakesNoCall s (completeStage s) := by
  obtain ⟨-, -, h⟩ | ⟨-, h⟩ := completeStage_cases s <;> rw [h]
  · exact complete_makesNoCall s
  · exact .refl s

theorem headerStage_makesNoCall (h : headerStage s = .next t) : MakesNoCall s t := by
  obtain ⟨-, -, h⟩ | ⟨-, rfl⟩ := headerStage_cases h
  · obtain ⟨-, rfl⟩ | ⟨-, -, rfl⟩ | ⟨-, -, -, rfl⟩ | ⟨-, -, -, n, -, rfl⟩ := headerCheck_cases h <;> exact ⟨rfl, rfl, rfl⟩
  · exact .refl t

theorem takeByte_makesNoCall {b : Byte} (h : takeByte b s = .next t) : MakesNoCall s t := by
  obtain ⟨-, m, hm, rfl⟩ := takeByte_cases h
  have happend : MakesNoCall s (rxAppend b s) := ⟨rfl, rfl, rfl⟩
  exact (happend.trans (headerStage_makesNoCall hm)).trans (completeStage_makesNoCall m)

theorem TakesAtMostOneByte.then_noCall (h : TakesAtMostOneByte s t) (h' : MakesNoCall t u) : TakesAtMostOneByte s u := by
  rw [TakesAtMostOneByte, h'.pending]
  exact h

theorem poll_takesAtMostOneByte (h : poll s = .next t) : TakesAtMostOneByte s t := by
  obtain ⟨-, rfl⟩ | ⟨-, -, rfl⟩ | ⟨-, b, rest, -, h⟩ := poll_cases h
  · exact .inl rfl
  · exact tryRead_takesAtMostOneByte s
  · exact (tryRead_takesAtMostOneByte s).then_noCall (takeByte_makesNoCall h)

theorem drain_takesAtMostOneByte (s : State) : TakesAtMostOneByte s (drain s) := by
  obtain ⟨-, h⟩ | ⟨-, -, h⟩ | ⟨-, -, h⟩ := drain_cases s <;> rw [h]
  · exact .inl rfl
  · exact tryRead_takesAtMostOneByte s
  · exact tryRead_takesAtMostOneByte s

/-! The other steps of `Sending` log a write, a flush, a hook or nothing. -/

theorem preHook_makesNoRead (s : State) : MakesNoRead s (preHook s) :=
  makesNoRead_of_events (callPreHook_pending s) (callPreHook_events s) (by cases s.cfg.hasPreHook <;> simp)

theorem tx_makesNoRead (h : tx s = .next t) : MakesNoRead s t := by
  obtain ⟨b, -, rfl⟩ := tx_cases h
  exact makesNoRead_of_events rfl (writeByte_events s b) (by simp)

theorem flush_makesNoRead (s : State) : MakesNoRead s (flush s) :=
  makesNoRead_of_events rfl (flushBus_events s) (by simp)

theorem postHook_makesNoRead (s : State) : MakesNoRead s (postHook s) :=
  makesNoRead_of_events (callPostHook_pending s) (callPostHook_events s) (by cases s.cfg.hasPostHook <;> simp)

theorem settle_makesNoCall (s : State) : MakesNoCall s (settle s) := by
  obtain ⟨-, h⟩ | ⟨-, h⟩ := settle_cases s <;> rw [h]
  · exact .refl s
  · exact ⟨rfl, rfl, rfl⟩

/-- Of the steps of `Sending` only the drain reads the transport (R125 to R130). -/
theorem sendingStep_reads (h : sendingStep s = .next t) :
    MakesNoRead s t ∨ (s.sendStep = .drain ∧ TakesAtMostOneByte s t) := by
  unfold sendingStep at h
  split at h
  case h_3 => exact .inl (tx_makesNoRead h)
  all_goals injection h with h; subst h
  · exact .inr ⟨‹_›, drain_takesAtMostOneByte s⟩
  · exact .inl (preHook_makesNoRead s)
  · exact .inl (flush_makesNoRead s)
  · exact .inl (postHook_makesNoRead s)
  · exact .inl (settle_makesNoCall s).makesNoRead

/-- The engine's step reads nothing, or is the drain or a poll and takes at most one byte (R59). -/
theorem engineStep_reads (h : engineStep s = .next t) :
    MakesNoRead s t ∨ (AtReadingStep s ∧ TakesAtMostOneByte s t) := by
  obtain ⟨-, he⟩ | ⟨hp, he⟩ | ⟨hr, he⟩ := engineStep_cases s <;> rw [he] at h
  · injection h with h
    exact .inl (h ▸ (MakesNoCall.refl s).makesNoRead)
  · exact (sendingStep_reads h).imp_right fun ⟨hd, htake⟩ => ⟨.inl ⟨hp, hd⟩, htake⟩
  · exact .inr ⟨.inr hr, poll_takesAtMostOneByte h⟩

end

/-- Settles O36: what a read does to either queue, and which engine steps make one. -/
theorem tryReadIsCalledOnlyInDrainAndPoll : Obligations.TryReadIsCalledOnlyInDrainAndPoll := by
  refine ⟨fun s b rest hp => ⟨readAnswer_of_nonempty hp, tryRead_of_nonempty hp⟩,
    fun s hp => ⟨readAnswer_of_empty hp, tryRead_of_empty hp⟩, fun s t h => ?_, fun s t h hdrain hr => ?_⟩
  · obtain hno | ⟨hat, htake⟩ := engineStep_reads h
    · exact .inl hno.pending
    · exact htake.imp_right fun hb => ⟨hat, hb⟩
  · obtain ⟨hpending, hevents⟩ | ⟨hd | hp, -⟩ := engineStep_reads h
    · exact ⟨hpending, hevents⟩
    · exact absurd hd hdrain
    · exact absurd (hp.symm.trans hr) nofun

end Sys2Proof.Machine

/-! Each operand parser reads exactly what its layout writes, and leaves the bytes after it (30_encoding.md R70, R72,
log 2). -/

namespace Sys2Proof.Machine

/-- The two bytes of a register joined give it back (R8). -/
@[simp] theorem word_hi8_lo8 (r : Reg) : word (hi8 r) (lo8 r) = r :=
  (BitVec.extractLsb'_append_extractLsb'_eq_extractLsb' (start₁ := 0) (len₁ := 8) (len₂ := 8) rfl).trans
    BitVec.extractLsb'_eq_self

@[simp] theorem hi8_word (h l : Byte) : hi8 (word h l) = h := BitVec.extractLsb'_append_eq_left

@[simp] theorem lo8_word (h l : Byte) : lo8 (word h l) = l := BitVec.extractLsb'_append_eq_right

/-! A natural in base 128. -/

/-- The number of digits allowed does not matter, once there are as many as bits. -/
theorem encodeNatFuel_eq_of_lt {f g n : Nat} (hf : n < 2 ^ (f + 1)) (hg : n < 2 ^ (g + 1)) :
    encodeNatFuel f n = encodeNatFuel g n := by
  induction f generalizing g n with
  | zero => cases g <;> simp [encodeNatFuel, show n < 128 by omega]
  | succ f ih =>
    by_cases hn : n < 128
    · cases g <;> simp [encodeNatFuel, hn]
    · cases g with
      | zero => omega
      | succ g =>
        simp only [encodeNatFuel, if_neg hn]
        rw [ih (by rw [pow_succ] at hf; omega) (g := g) (by rw [pow_succ] at hg; omega)]

theorem encodeNat_of_lt {n : Nat} (h : n < 128) : encodeNat n = [BitVec.ofNat 8 n] := by
  unfold encodeNat
  cases n.log2 <;> simp [encodeNatFuel, h]

theorem encodeNat_of_ge {n : Nat} (h : 128 ≤ n) :
    encodeNat n = BitVec.ofNat 8 (n % 128 + 128) :: encodeNat (n / 128) := by
  have hn : n < 2 ^ (n.log2 + 1) := Nat.lt_log2_self
  unfold encodeNat
  cases hl : n.log2 with
  | zero => rw [hl] at hn; omega
  | succ k =>
    rw [hl, pow_succ] at hn
    rw [encodeNatFuel, if_neg (Nat.not_lt.mpr h), encodeNatFuel_eq_of_lt (by omega) Nat.lt_log2_self]

theorem decodeNat_cons_of_lt {b : Byte} (h : b.toNat < 128) (bytes : List Byte) :
    decodeNat (b :: bytes) = .ok (b.toNat, bytes) := by
  rw [decodeNat, if_pos h]

/-- A digit with bit 7 set goes before a natural that is not 0. -/
theorem decodeNat_cons_eq_ok_iff {b : Byte} {bytes rest : List Byte} {n : Nat} (h : 128 ≤ b.toNat) :
    decodeNat (b :: bytes) = .ok (n, rest) ↔
      ∃ m, decodeNat bytes = .ok (m, rest) ∧ m ≠ 0 ∧ b.toNat - 128 + 128 * m = n := by
  rw [decodeNat, if_neg (Nat.not_lt.mpr h)]
  cases decodeNat bytes with
  | error e => simp
  | ok x =>
    obtain ⟨m, r⟩ := x
    by_cases hm : m = 0
    · simp +contextual [hm]
    · simp [hm, and_comm]

theorem decodeNat_encodeNat (n : Nat) (rest : List Byte) : decodeNat (encodeNat n ++ rest) = .ok (n, rest) := by
  induction n using Nat.strong_induction_on with
  | h n ih =>
    by_cases hn : n < 128
    · have hb : (BitVec.ofNat 8 n).toNat = n := by rw [BitVec.toNat_ofNat]; omega
      rw [encodeNat_of_lt hn, List.singleton_append, decodeNat_cons_of_lt (by omega), hb]
    · have hb : (BitVec.ofNat 8 (n % 128 + 128)).toNat = n % 128 + 128 := by rw [BitVec.toNat_ofNat]; omega
      rw [encodeNat_of_ge (by omega), List.cons_append, decodeNat_cons_eq_ok_iff (by omega)]
      exact ⟨n / 128, ih _ (by omega), by omega, by omega⟩

/-- The shortest form is the only one: a natural's digits are those its layout writes. -/
theorem decodeNat_eq_ok_iff {bytes rest : List Byte} {n : Nat} :
    decodeNat bytes = .ok (n, rest) ↔ bytes = encodeNat n ++ rest := by
  refine ⟨fun h => ?_, fun h => h ▸ decodeNat_encodeNat n rest⟩
  induction bytes generalizing n with
  | nil => cases h
  | cons b bytes ih =>
    have hlt := b.isLt
    by_cases hb : b.toNat < 128
    · rw [decodeNat_cons_of_lt hb] at h
      cases h
      rw [encodeNat_of_lt hb, BitVec.ofNat_toNat, BitVec.setWidth_eq, List.singleton_append]
    · obtain ⟨m, hm, hm0, rfl⟩ := (decodeNat_cons_eq_ok_iff (by omega)).mp h
      have hdigit : (b.toNat - 128 + 128 * m) % 128 + 128 = b.toNat := by omega
      have hrest : (b.toNat - 128 + 128 * m) / 128 = m := by omega
      rw [encodeNat_of_ge (by omega), hdigit, hrest, BitVec.ofNat_toNat, BitVec.setWidth_eq, List.cons_append,
        ← ih hm]

/-! A byte sequence after its length, and the operands of BUILD and EXEC. -/

theorem decodeSeq_eq_ok_iff {bytes rest data : List Byte} :
    decodeSeq bytes = .ok (data, rest) ↔ bytes = encodeSeq data ++ rest := by
  unfold decodeSeq encodeSeq
  constructor
  · intro h
    split at h
    · cases h
    · rename_i n r hn
      split at h
      · cases h
      · cases h
        rw [List.length_take_of_le (by omega), List.append_assoc, List.take_append_drop]
        exact decodeNat_eq_ok_iff.mp hn
  · rintro rfl
    rw [List.append_assoc, decodeNat_encodeNat]
    simp

theorem toInstr_eq_ok_iff {α : Type} {f : α → Instr} {p : Parsed α} {i : Instr} {rest : List Byte} :
    p.toInstr f = .ok (i, rest) ↔ ∃ a, p = .ok (a, rest) ∧ f a = i := by
  cases p with
  | error e => simp [Parsed.toInstr]
  | ok x => obtain ⟨a, r⟩ := x; simp [Parsed.toInstr, and_comm]

theorem decodeRequestOperands_eq_ok_iff {f : Byte → Byte → Reg → Reg → List Byte → Instr} {bytes rest : List Byte}
    {i : Instr} :
    decodeRequestOperands f bytes = .ok (i, rest) ↔
      ∃ slave fc start qty extra, bytes = encodeRequestOperands slave fc start qty extra ++ rest ∧
        f slave fc start qty extra = i := by
  unfold decodeRequestOperands encodeRequestOperands
  constructor
  · intro h
    split at h
    · rename_i slave fc startHi startLo qtyHi qtyLo operand
      obtain ⟨extra, hextra, hi⟩ := toInstr_eq_ok_iff.mp h
      exact ⟨slave, fc, _, _, extra, by simp [decodeSeq_eq_ok_iff.mp hextra], hi⟩
    · cases h
  · rintro ⟨slave, fc, start, qty, extra, rfl, rfl⟩
    simp only [List.cons_append, List.nil_append, word_hi8_lo8]
    exact toInstr_eq_ok_iff.mpr ⟨extra, decodeSeq_eq_ok_iff.mpr rfl, rfl⟩

end Sys2Proof.Machine

/-! Decoding and encoding agree, format by format (30_encoding.md R70, R72, R77, R84). -/

namespace Sys2Proof.Machine

section
variable {i : Instr}

theorem decode_eq_ok_iff {c : Command} : decode c = .ok i ↔ decodeBytes c.format c.bytes = .ok (i, []) := by
  refine ⟨decode_eq_ok, fun h => ?_⟩
  rw [decode, h]
  rfl

theorem takesAll_eq_ok_iff {r : Except DecodeError Instr} : takesAll r = .ok (i, []) ↔ r = .ok i := by
  refine ⟨takesAll_eq_ok, fun h => ?_⟩
  rw [h, takesAll]

theorem byte_eq_ofNat {b : Byte} {k : Nat} (h : b.toNat = k) : b = BitVec.ofNat 8 k := by
  rw [← h, BitVec.ofNat_toNat, BitVec.setWidth_eq]

/-! The CMD format: the selector, then its operands. -/

theorem encode_of_decodeCmd {bytes : List Byte} (h : decodeCmd bytes = .ok (i, [])) :
    encode i = ⟨.cmd, bytes⟩ ∧ i.wellFormed = true := by
  cases bytes with
  | nil => cases h
  | cons op operands =>
    simp only [decodeCmd] at h
    split at h <;> rename_i hop
    case h_9 => cases h
    all_goals obtain rfl := byte_eq_ofNat hop
    · obtain ⟨data, hdata, rfl⟩ := toInstr_eq_ok_iff.mp h
      rw [decodeSeq_eq_ok_iff.mp hdata, List.append_nil]
      exact ⟨rfl, rfl⟩
    · obtain ⟨frame, hframe, rfl⟩ := toInstr_eq_ok_iff.mp h
      rw [decodeSeq_eq_ok_iff.mp hframe, List.append_nil]
      exact ⟨rfl, rfl⟩
    · obtain ⟨slave, fc, start, qty, extra, rfl, rfl⟩ := decodeRequestOperands_eq_ok_iff.mp h
      rw [List.append_nil]
      exact ⟨rfl, rfl⟩
    · obtain ⟨slave, fc, start, qty, extra, rfl, rfl⟩ := decodeRequestOperands_eq_ok_iff.mp h
      rw [List.append_nil]
      exact ⟨rfl, rfl⟩
    · cases h
      exact ⟨rfl, rfl⟩
    · obtain ⟨index, hindex, rfl⟩ := toInstr_eq_ok_iff.mp h
      rw [decodeNat_eq_ok_iff.mp hindex, List.append_nil]
      exact ⟨rfl, rfl⟩
    · unfold decodeDecodeOperands at h
      split at h
      · cases h
      · obtain ⟨start, hstart, rfl⟩ := toInstr_eq_ok_iff.mp h
        rw [decodeNat_eq_ok_iff.mp hstart, List.append_nil]
        exact ⟨rfl, rfl⟩
    · cases h
      exact ⟨rfl, rfl⟩

/-! The ADU_REQUEST_FC format: a frame of at most `TX_CAP` bytes with a right CRC and a listed function code. -/

/-- CRC_CHECK passes a frame that is its own body with the CRC appended (R102). -/
theorem crcCheck_iff_eq_appendCrc {frame : List Byte} :
    crcCheck frame = true ↔ 2 ≤ frame.length ∧ frame = appendCrc (frame.take (frame.length - 2)) := by
  unfold crcCheck appendCrc
  split
  · exact ⟨nofun, fun h => absurd h.1 (Nat.not_le.mpr ‹_›)⟩
  · rw [decide_eq_true_iff]
    constructor
    · intro h
      exact ⟨by omega, by rw [← h, List.take_append_drop]⟩
    · rintro ⟨-, h⟩
      have hsplit := (List.take_append_drop (frame.length - 2) frame).trans h
      exact List.append_cancel_left hsplit

theorem crcCheck_appendCrc (body : List Byte) : crcCheck (appendCrc body) = true := by
  have hbody : (appendCrc body).take body.length = body := by rw [appendCrc, List.take_left]
  rw [crcCheck_iff_eq_appendCrc, appendCrc_length, Nat.add_sub_cancel, hbody]
  exact ⟨by omega, rfl⟩

/-- A request decodes exactly where it is a fitting frame of BUILD's layout whose code is listed (R72, R79). -/
theorem decodeRequest_eq_ok_iff {frame : List Byte} :
    decodeRequest frame = .ok i ↔
      ∃ slave fc start qty extra, frame = appendCrc (requestBody slave fc start qty extra) ∧ RequestFits extra ∧
        requestOf fc slave start qty extra = .ok i := by
  constructor
  · intro h
    unfold decodeRequest at h
    split at h
    case h_2 => cases h
    rename_i slave fc startHi startLo qtyHi qtyLo rest
    split_ifs at h with hshort hlong hcrc
    have hcount : (slave :: fc :: startHi :: startLo :: qtyHi :: qtyLo :: rest).length - 2 = rest.length - 2 + 6 := by
      simp only [List.length_cons]
      omega
    have hbody : (slave :: fc :: startHi :: startLo :: qtyHi :: qtyLo :: rest).take (rest.length - 2 + 6) =
        requestBody slave fc (word startHi startLo) (word qtyHi qtyLo) (rest.take (rest.length - 2)) := by
      simp [requestBody]
    have hframe := (crcCheck_iff_eq_appendCrc.mp hcrc).2
    rw [hcount, hbody] at hframe
    refine ⟨slave, fc, word startHi startLo, word qtyHi qtyLo, rest.take (rest.length - 2), hframe, ?_, h⟩
    simp only [List.length_cons, RequestFits, List.length_take] at hlong ⊢
    omega
  · rintro ⟨slave, fc, start, qty, extra, rfl, hfits, hcode⟩
    have hcrc := crcCheck_appendCrc (requestBody slave fc start qty extra)
    obtain ⟨crcLo, crcHi, hshape⟩ : ∃ crcLo crcHi, appendCrc (requestBody slave fc start qty extra) =
        slave :: fc :: hi8 start :: lo8 start :: hi8 qty :: lo8 qty :: (extra ++ [crcLo, crcHi]) := ⟨_, _, rfl⟩
    rw [hshape] at hcrc ⊢
    simp only [decodeRequest]
    rw [if_neg (by simp), if_neg (by simp only [List.length_cons, List.length_append, List.length_nil]; omega),
      if_pos hcrc]
    simpa using hcode

/-- A function code's request is laid out with that code, and well-formed where it fits (R72, R79). -/
theorem encode_of_requestOf {fc slave : Byte} {start qty : Reg} {extra : List Byte}
    (h : requestOf fc slave start qty extra = .ok i) :
    encode i = encodeRequest fc slave start qty extra ∧ i.wellFormed = decide (RequestFits extra) := by
  unfold requestOf at h
  split at h <;> rename_i hfc
  case h_11 => cases h
  all_goals
    obtain rfl := byte_eq_ofNat hfc
    cases h
    exact ⟨rfl, rfl⟩

theorem encode_of_decodeRequest {frame : List Byte} (h : decodeRequest frame = .ok i) :
    encode i = ⟨.aduRequest, frame⟩ ∧ i.wellFormed = true := by
  obtain ⟨slave, fc, start, qty, extra, rfl, hfits, hcode⟩ := decodeRequest_eq_ok_iff.mp h
  obtain ⟨hencode, hwf⟩ := encode_of_requestOf hcode
  exact ⟨hencode, hwf.trans (decide_eq_true hfits)⟩

theorem decode_encodeRequest {fc slave : Byte} {start qty : Reg} {extra : List Byte}
    (hfits : decide (RequestFits extra) = true) (h : requestOf fc slave start qty extra = .ok i) :
    decode (encodeRequest fc slave start qty extra) = .ok i := by
  refine decode_eq_ok_iff.mpr (takesAll_eq_ok_iff.mpr (decodeRequest_eq_ok_iff.mpr ?_))
  exact ⟨slave, fc, start, qty, extra, rfl, of_decide_eq_true hfits, h⟩

/-! The ADU_RESPONSE_BYTE1 format: five bytes, bit 7 of byte 1 set. -/

theorem getLsbD_exceptionByte (fc : BitVec 7) : (1#1 ++ fc : Byte).getLsbD 7 = true := by
  revert fc
  decide

theorem setWidth_exceptionByte (fc : BitVec 7) : (1#1 ++ fc : Byte).setWidth 7 = fc := by
  revert fc
  decide

theorem exceptionByte_setWidth {b : Byte} (h : b.getLsbD 7 = true) : (1#1 ++ b.setWidth 7 : Byte) = b := by
  revert b
  decide

theorem encode_of_decodeResponse {bytes : List Byte} (h : decodeResponse bytes = .ok i) :
    encode i = ⟨.aduResponse, bytes⟩ ∧ i.wellFormed = true := by
  unfold decodeResponse at h
  split at h
  case h_2 => cases h
  split_ifs at h with hbit
  cases h
  exact ⟨by rw [encode, exceptionByte_setWidth hbit], rfl⟩

theorem decodeResponse_exceptionBytes (slave : Byte) (fc : BitVec 7) (code crcLo crcHi : Byte) :
    decodeResponse [slave, 1#1 ++ fc, code, crcLo, crcHi] = .ok (.exceptionResponse slave fc code crcLo crcHi) := by
  rw [decodeResponse, if_pos (getLsbD_exceptionByte fc), setWidth_exceptionByte]

/-! The ENC format: the descriptor byte, then the start index. -/

theorem descriptorOf_encByte (t : NumType) (order : Order) :
    descriptorOf (encByte (typeCode t) order) = some ⟨t, order⟩ := by
  cases t <;> cases order <;> decide

theorem encByte_of_descriptorOf {enc : Byte} {d : Descriptor} (h : descriptorOf enc = some d) :
    encByte (typeCode d.type) d.order = enc := by
  have hall : ∀ enc : Byte, ∀ d ∈ descriptorOf enc, encByte (typeCode d.type) d.order = enc := by decide
  exact hall enc d h

theorem encByte_of_f16 {enc : Byte} (h : reservedBits enc = 0 ∧ widthCode enc = 0 ∧ kindCode enc = 2) :
    encByte 0x08 (orderOf enc) = enc := by
  revert enc
  decide

theorem encRowOf_encByte (t : NumType) (order : Order) (start : Nat) :
    encRowOf (encByte (typeCode t) order) start = .ok (decodeRowOf t start order) := by
  rw [encRowOf, descriptorOf_encByte]

theorem encRowOf_f16 (order : Order) (start : Nat) :
    encRowOf (encByte 0x08 order) start = .ok (.decodeF16Reserved start order) := by
  cases order <;> rfl

theorem encode_decodeRowOf (t : NumType) (start : Nat) (order : Order) :
    encode (decodeRowOf t start order) = encodeDecodeRow (typeCode t) start order ∧
      (decodeRowOf t start order).wellFormed = true := by
  cases t <;> exact ⟨rfl, rfl⟩

theorem encode_of_encRowOf {enc : Byte} {start : Nat} (h : encRowOf enc start = .ok i) :
    encode i = ⟨.enc, enc :: encodeNat start⟩ ∧ i.wellFormed = true := by
  unfold encRowOf at h
  split at h
  · rename_i d hd
    cases h
    obtain ⟨hencode, hwf⟩ := encode_decodeRowOf d.type start d.order
    exact ⟨by rw [hencode, encodeDecodeRow, encByte_of_descriptorOf hd], hwf⟩
  · split_ifs at h with hf16
    cases h
    exact ⟨by rw [encode, encodeDecodeRow, encByte_of_f16 hf16], rfl⟩

theorem decodeEnc_eq_ok_iff {bytes : List Byte} :
    decodeEnc bytes = .ok (i, []) ↔ ∃ enc start, bytes = enc :: encodeNat start ∧ encRowOf enc start = .ok i := by
  constructor
  · intro h
    unfold decodeEnc at h
    split at h
    · cases h
    · rename_i enc operand
      split at h
      · cases h
      · rename_i start rest hstart
        split at h
        · cases h
        · cases h
          rw [decodeNat_eq_ok_iff.mp hstart, List.append_nil]
          exact ⟨enc, start, rfl, ‹_›⟩
  · rintro ⟨enc, start, rfl, h⟩
    have hstart : decodeNat (encodeNat start) = .ok (start, []) := decodeNat_eq_ok_iff.mpr (List.append_nil _).symm
    simp only [decodeEnc, hstart, h]

theorem decode_encodeDecodeRow {low start : Nat} {order : Order} (h : encRowOf (encByte low order) start = .ok i) :
    decode (encodeDecodeRow low start order) = .ok i :=
  decode_eq_ok_iff.mpr (decodeEnc_eq_ok_iff.mpr ⟨_, start, rfl, h⟩)

end

/-- Settles O1: each format's decoder reads back what its layout writes. -/
theorem decodeOfEncodeIsTheInstruction : Obligations.DecodeOfEncodeIsTheInstruction := by
  intro i hwf
  cases i with
  | crc16 data | crcCheck data =>
    exact decode_eq_ok_iff.mpr
      (toInstr_eq_ok_iff.mpr ⟨data, decodeSeq_eq_ok_iff.mpr (List.append_nil _).symm, rfl⟩)
  | build slave fc start qty extra | exec slave fc start qty extra =>
    exact decode_eq_ok_iff.mpr (decodeRequestOperands_eq_ok_iff.mpr
      ⟨slave, fc, start, qty, extra, (List.append_nil _).symm, rfl⟩)
  | bankRead n | decode n =>
    exact decode_eq_ok_iff.mpr (toInstr_eq_ok_iff.mpr ⟨n, decodeNat_eq_ok_iff.mpr (List.append_nil _).symm, rfl⟩)
  | result | reservedOp7 => rfl
  | readCoils | readDiscreteInputs | readHoldingRegisters | readInputRegisters | writeSingleCoil | writeSingleRegister
  | writeMultipleCoils | writeMultipleRegisters | maskWriteRegister | readWriteMultipleRegisters =>
    exact decode_encodeRequest hwf rfl
  | exceptionResponse slave fc code crcLo crcHi =>
    exact decode_eq_ok_iff.mpr
      (takesAll_eq_ok_iff.mpr (decodeResponse_exceptionBytes slave fc code crcLo crcHi))
  | decodeU16 start order => exact decode_encodeDecodeRow (encRowOf_encByte .u16 order start)
  | decodeS16 start order => exact decode_encodeDecodeRow (encRowOf_encByte .s16 order start)
  | decodeU32 start order => exact decode_encodeDecodeRow (encRowOf_encByte .u32 order start)
  | decodeS32 start order => exact decode_encodeDecodeRow (encRowOf_encByte .s32 order start)
  | decodeF32 start order => exact decode_encodeDecodeRow (encRowOf_encByte .f32 order start)
  | decodeU64 start order => exact decode_encodeDecodeRow (encRowOf_encByte .u64 order start)
  | decodeS64 start order => exact decode_encodeDecodeRow (encRowOf_encByte .s64 order start)
  | decodeF64 start order => exact decode_encodeDecodeRow (encRowOf_encByte .f64 order start)
  | decodeF16Reserved start order => exact decode_encodeDecodeRow (encRowOf_f16 order start)

/-- Settles O2: what a format's decoder accepts is what its layout writes. -/
theorem encodeOfDecodeIsTheCommand : Obligations.EncodeOfDecodeIsTheCommand := by
  rintro ⟨format, bytes⟩ i h
  have hbytes := decode_eq_ok h
  cases format with
  | cmd => exact encode_of_decodeCmd hbytes
  | aduRequest => exact encode_of_decodeRequest (takesAll_eq_ok hbytes)
  | aduResponse => exact encode_of_decodeResponse (takesAll_eq_ok hbytes)
  | enc =>
    obtain ⟨enc, start, rfl, hrow⟩ := decodeEnc_eq_ok_iff.mp hbytes
    exact encode_of_encRowOf hrow

/-- A word is the instruction whose layout writes it. -/
theorem decode_eq_ok_of_encode {c : Command} {i : Instr} (h : encode i = c) (hwf : i.wellFormed = true) :
    decode c = .ok i :=
  h ▸ decodeOfEncodeIsTheInstruction i hwf

/-- Settles O3: each word is what its instruction's layout writes, the two requests' CRCs computed. -/
theorem wordsDecodeAsTheSpecLaysThemOut : Obligations.WordsDecodeAsTheSpecLaysThemOut := by
  exact ⟨decode_eq_ok_of_encode (by decide +kernel) rfl, decode_eq_ok_of_encode (by decide +kernel) rfl,
    decode_eq_ok_of_encode rfl rfl, decode_eq_ok_of_encode rfl rfl, decode_eq_ok_of_encode rfl rfl,
    decode_eq_ok_of_encode rfl rfl⟩

/-- Settles O14: the two reserved commands only refuse; the float's answer names the busy case first (R180, R190). -/
theorem reservedCommandsAreRefusedAlways : Obligations.ReservedCommandsAreRefusedAlways := by
  refine ⟨fun s => rfl, fun s start order hp => ?_, fun s start order hp => ?_⟩
  · have hb : busy s = false := not_busy_iff.mpr hp
    simp [exec, execDecodeF16Reserved, refuse, hb]
  · have hb : busy s = true := busy_iff.mpr hp
    simp [exec, execDecodeF16Reserved, refuse, hb]

end Sys2Proof.Machine

/-! The polls of a receiving phase before the deadline: one pending byte each, the header check at the fifth, the
completion at the last (42_transaction.md R131 to R136). -/

namespace Sys2Proof.Machine

/-- The header passed, and the response's length is set (R134). -/
def awaitBody (n : Nat) (s : State) : State := { s with expected := some n, phase := .awaitingBody }

/-- The state after polls that read these bytes and do nothing else. -/
def afterReads (s : State) (bytes : List Byte) : State := bytes.foldl afterRead s

section
variable {s : State} {b : Byte} {bytes rest : List Byte} {n : Nat}

@[simp] theorem afterRead_phase : (afterRead s b).phase = s.phase := rfl

@[simp] theorem afterRead_rxLen : (afterRead s b).rxLen = s.rxLen + 1 := rfl

theorem afterRead_pending (h : s.pending = b :: rest) : (afterRead s b).pending = rest := by
  rw [afterRead, h, List.tail_cons]

theorem rxAppend_tryRead (h : s.pending = b :: rest) : rxAppend b (tryRead s) = afterRead s b := by
  simp [tryRead, logEvent, rxAppend, afterRead, h]

theorem rxByte_afterRead_ne {i : Nat} (h : s.rxLen ≠ i) : rxByte (afterRead s b) i = rxByte s i := by
  simp [rxByte, afterRead, h]

theorem rxBytes_afterRead (h : s.rxLen < rxCap) : rxBytes (afterRead s b) = rxBytes s ++ [b] :=
  rxBytes_rxAppend (s := { s with pending := s.pending.tail, events := s.events ++ [.read (some b)] }) h

/-- The accumulator's byte at an index is the accumulated byte there (R26). -/
theorem rxByte_of_rxBytes {i : Nat} (h : (rxBytes s)[i]? = some b) : rxByte s i = b := by
  rw [rxBytes, List.getElem?_take] at h
  split_ifs at h
  rw [rxByte, ← Vector.getElem?_toList, h, Option.getD_some]

/-! Many reads. -/

@[simp] theorem afterReads_nil : afterReads s [] = s := rfl

@[simp] theorem afterReads_cons : afterReads s (b :: bytes) = afterReads (afterRead s b) bytes := rfl

theorem afterReads_append (more : List Byte) : afterReads s (bytes ++ more) = afterReads (afterReads s bytes) more :=
  List.foldl_append

/-- Reads take the bytes from `pending`, log them and append them, and touch nothing else (R131, R132). -/
theorem afterReads_eq (s : State) (bytes : List Byte) :
    afterReads s bytes = { s with
      pending := s.pending.drop bytes.length
      events := s.events ++ bytes.map fun b => Event.read (some b)
      rx := (afterReads s bytes).rx
      rxLen := s.rxLen + bytes.length } := by
  induction bytes generalizing s with
  | nil => simp
  | cons b bytes ih =>
    rw [afterReads_cons, ih]
    simp [afterRead, Nat.add_assoc, Nat.add_comm 1]

@[simp] theorem afterReads_phase : (afterReads s bytes).phase = s.phase := by rw [afterReads_eq]

@[simp] theorem afterReads_reqSlave : (afterReads s bytes).reqSlave = s.reqSlave := by rw [afterReads_eq]

@[simp] theorem afterReads_reqFc : (afterReads s bytes).reqFc = s.reqFc := by rw [afterReads_eq]

@[simp] theorem afterReads_rxLen : (afterReads s bytes).rxLen = s.rxLen + bytes.length := by rw [afterReads_eq]

@[simp] theorem afterReads_timer : (afterReads s bytes).timer = s.timer := by rw [afterReads_eq]

@[simp] theorem afterReads_bank : (afterReads s bytes).bank = s.bank := by rw [afterReads_eq]

@[simp] theorem afterReads_bankLen : (afterReads s bytes).bankLen = s.bankLen := by rw [afterReads_eq]

@[simp] theorem afterReads_cfg : (afterReads s bytes).cfg = s.cfg := by rw [afterReads_eq]

@[simp] theorem afterReads_sent : (afterReads s bytes).sent = s.sent := by rw [afterReads_eq]

@[simp] theorem afterReads_events :
    (afterReads s bytes).events = s.events ++ bytes.map fun b => Event.read (some b) := by rw [afterReads_eq]

theorem afterReads_pending (h : s.pending = bytes ++ rest) : (afterReads s bytes).pending = rest := by
  rw [afterReads_eq, h, List.drop_left]

theorem rxBytes_afterReads (h : s.rxLen + bytes.length ≤ rxCap) :
    rxBytes (afterReads s bytes) = rxBytes s ++ bytes := by
  induction bytes generalizing s with
  | nil => simp
  | cons b bytes ih =>
    rw [List.length_cons] at h
    rw [afterReads_cons, ih (by rw [afterRead_rxLen]; omega), rxBytes_afterRead (by omega), List.append_assoc,
      List.singleton_append]

theorem rxBytes_afterReads_of_empty (hlen : s.rxLen = 0) (hcap : bytes.length ≤ rxCap) :
    rxBytes (afterReads s bytes) = bytes := by
  rw [rxBytes_afterReads (by omega), rxBytes, hlen, List.take_zero, List.nil_append]

theorem afterReads_awaitBody : afterReads (awaitBody n s) bytes = awaitBody n (afterReads s bytes) := by
  induction bytes generalizing s with
  | nil => rfl
  | cons b bytes ih => exact ih (s := afterRead s b)

/-! One poll. -/

/-- A poll before the deadline with a byte pending reads it, and then tests the header and the length (R131). -/
theorem engineStep_read (hr : receiving s = true) (hd : s.timer < s.cfg.deadlineTicks) (hp : s.pending = b :: rest)
    (hcap : s.rxLen < rxCap) :
    engineStep s = andThen (headerStage (afterRead s b)) fun t => .next (completeStage t) := by
  have hpoll : engineStep s = poll s := by
    obtain h | h := receiving_iff.mp hr <;> rw [engineStep, h]
  have hroom : (tryRead s).rxLen < rxCap := hcap
  rw [hpoll, poll, if_neg (Nat.not_le.mpr hd), readAnswer_of_nonempty hp]
  simp only [takeByte]
  rw [if_pos hroom, rxAppend_tryRead hp]

theorem engineStep_header (hphase : s.phase = .awaitingHeader) (hlen : s.rxLen < 4)
    (hd : s.timer < s.cfg.deadlineTicks) (hp : s.pending = b :: rest) : engineStep s = .next (afterRead s b) := by
  have hlen' : (afterRead s b).rxLen ≠ 5 := by rw [afterRead_rxLen]; omega
  have hphase' : (afterRead s b).phase ≠ .awaitingBody := by simp [hphase]
  rw [engineStep_read (receiving_iff.mpr (.inl hphase)) hd hp (by simp only [rxCap]; omega), headerStage,
    if_neg (fun h => hlen' h.2), andThen_next, completeStage, if_neg (fun h => hphase' h.1)]

/-- The fifth byte of a header is read, and the header checked (R131, R133). -/
theorem engineStep_fifth (hphase : s.phase = .awaitingHeader) (hlen : s.rxLen = 4)
    (hd : s.timer < s.cfg.deadlineTicks) (hp : s.pending = b :: rest) :
    engineStep s = andThen (headerCheck (afterRead s b)) fun t => .next (completeStage t) := by
  have hfifth : (afterRead s b).phase = .awaitingHeader ∧ (afterRead s b).rxLen = 5 := by simp [hphase, hlen]
  rw [engineStep_read (receiving_iff.mpr (.inl hphase)) hd hp (by simp [rxCap, hlen]), headerStage, if_pos hfifth]

theorem engineStep_body (hphase : s.phase = .awaitingBody) (hcap : s.rxLen < rxCap)
    (hd : s.timer < s.cfg.deadlineTicks) (hp : s.pending = b :: rest) :
    engineStep s = .next (completeStage (afterRead s b)) := by
  have hbody : (afterRead s b).phase ≠ .awaitingHeader := by simp [hphase]
  rw [engineStep_read (receiving_iff.mpr (.inr hphase)) hd hp hcap, headerStage, if_neg (fun h => hbody h.1),
    andThen_next]

/-! The header check, test by test (R133). -/

theorem headerCheck_of_slave (h : rxByte s 0 ≠ s.reqSlave) : headerCheck s = .next (finish .invalidSlaveId s) :=
  if_pos h

theorem headerCheck_of_function (hslave : rxByte s 0 = s.reqSlave) (h : maskedFunction (rxByte s 1) ≠ s.reqFc) :
    headerCheck s = .next (finish .invalidFunction s) := by
  rw [headerCheck, if_neg (not_not.mpr hslave), if_pos h]

theorem headerCheck_of_exception (hslave : rxByte s 0 = s.reqSlave) (hfc : maskedFunction (rxByte s 1) = s.reqFc)
    (h : exceptionBit (rxByte s 1) = true) : headerCheck s = .next (finish (.modbusException (rxByte s 2)) s) := by
  rw [headerCheck, if_neg (not_not.mpr hslave), if_neg (not_not.mpr hfc), if_pos h]

theorem headerCheck_of_length (hslave : rxByte s 0 = s.reqSlave) (hfc : maskedFunction (rxByte s 1) = s.reqFc)
    (hbit : exceptionBit (rxByte s 1) = false) (h : responseLength s.reqFc (rxByte s 2) = some n) :
    headerCheck s = .next (awaitBody n s) := by
  rw [headerCheck, if_neg (not_not.mpr hslave), if_neg (not_not.mpr hfc), if_neg (by simp [hbit]), h]
  rfl

theorem headerCheck_of_noLength (hslave : rxByte s 0 = s.reqSlave) (hfc : maskedFunction (rxByte s 1) = s.reqFc)
    (hbit : exceptionBit (rxByte s 1) = false) (h : responseLength s.reqFc (rxByte s 2) = none) :
    headerCheck s = .fault .noLengthRule := by
  rw [headerCheck, if_neg (not_not.mpr hslave), if_neg (not_not.mpr hfc), if_neg (by simp [hbit]), h]

theorem completeStage_finish (st : Status) (s : State) : completeStage (finish st s) = finish st s := by
  simp [completeStage]

/-- A response of more than five bytes is not complete at its header (R134). -/
theorem completeStage_awaitBody_of_ne (h : n ≠ s.rxLen) : completeStage (awaitBody n s) = awaitBody n s :=
  if_neg fun hc => h (Option.some.inj hc.2)

theorem completeStage_awaitBody_self : completeStage (awaitBody s.rxLen s) = complete (awaitBody s.rxLen s) :=
  if_pos ⟨rfl, rfl⟩

/-! Many polls. -/

/-- Polls that leave the header short of its fifth byte only read (R131). -/
theorem runTurns_header (hphase : s.phase = .awaitingHeader) (hlen : s.rxLen + bytes.length ≤ 4)
    (hd : s.timer < s.cfg.deadlineTicks) (hp : s.pending = bytes ++ rest) :
    runTurns (engineTurns bytes.length) s = .next (afterReads s bytes) := by
  induction bytes generalizing s with
  | nil => rfl
  | cons b bytes ih =>
    rw [List.length_cons] at hlen
    have hstep : engineStep s = .next (afterRead s b) := engineStep_header hphase (by omega) hd hp
    have hrest : (afterRead s b).pending = bytes ++ rest := afterRead_pending hp
    rw [List.length_cons, engineTurns, List.replicate_succ, runTurns_cons, takeTurn_engine, hstep, andThen_next]
    exact ih (s := afterRead s b) hphase (by rw [afterRead_rxLen]; omega) hd hrest

/-- Polls that bring the body's last byte end in its completion (R131, R135). -/
theorem runTurns_body (hphase : s.phase = .awaitingBody) (hexp : s.expected = some (s.rxLen + bytes.length))
    (hcap : s.rxLen + bytes.length ≤ rxCap) (hd : s.timer < s.cfg.deadlineTicks) (hp : s.pending = bytes ++ rest) :
    runTurns (engineTurns bytes.length) (completeStage s) = .next (complete (afterReads s bytes)) := by
  induction bytes generalizing s with
  | nil => exact congrArg Host.Outcome.next (if_pos ⟨hphase, hexp⟩)
  | cons b bytes ih =>
    rw [List.length_cons] at hexp hcap
    have hopen : completeStage s = s := if_neg fun hc => by
      rw [hexp] at hc
      have := Option.some.inj hc.2
      omega
    have hstep : engineStep s = .next (completeStage (afterRead s b)) := engineStep_body hphase (by omega) hd hp
    have hrest : (afterRead s b).pending = bytes ++ rest := afterRead_pending hp
    have hlen : (afterRead s b).rxLen + bytes.length = s.rxLen + (bytes.length + 1) := by rw [afterRead_rxLen]; omega
    rw [hopen, List.length_cons, engineTurns, List.replicate_succ, runTurns_cons, takeTurn_engine, hstep, andThen_next]
    exact ih (s := afterRead s b) hphase (hlen ▸ hexp) (hlen ▸ hcap) hd hrest

/-- Five polls from an empty accumulator read the header and check it (R131, R133). -/
theorem runTurns_fiveReads {five : List Byte} (hphase : s.phase = .awaitingHeader) (hlen : s.rxLen = 0)
    (hd : s.timer < s.cfg.deadlineTicks) (hfive : five.length = 5) (hp : s.pending = five ++ rest) :
    runTurns (engineTurns 5) s = andThen (headerCheck (afterReads s five)) fun t => .next (completeStage t) := by
  obtain ⟨four, b, rfl⟩ : ∃ four b, five = four ++ [b] :=
    ⟨_, _, (List.dropLast_append_getLast (List.ne_nil_of_length_eq_add_one hfive)).symm⟩
  have hfour : four.length = 4 := by simpa using hfive
  rw [List.append_assoc] at hp
  have hheader := runTurns_header hphase (by omega) hd hp
  rw [hfour] at hheader
  have hstep := engineStep_fifth (s := afterReads s four) (b := b) (rest := rest) (by rwa [afterReads_phase])
    (by rw [afterReads_rxLen, hlen, hfour]) (by rwa [afterReads_timer, afterReads_cfg]) (afterReads_pending hp)
  have hturns : engineTurns 5 = engineTurns 4 ++ [.engine] := rfl
  rw [hturns, runTurns_append, hheader, andThen_next, runTurns_cons, takeTurn_engine, hstep, andThen_assoc,
    afterReads_append]
  rfl

end

end Sys2Proof.Machine

/-! The poll of a response's fifth byte (30_encoding.md R78, R81, 42_transaction.md R133 to R135). -/

namespace Sys2Proof.Machine

/-! What a response has by its function code. -/

section
variable {fc : Byte}

theorem responseLength_read (h : IsBitRead fc ∨ IsWordRead fc) (byteCount : Byte) :
    responseLength fc byteCount = some (5 + byteCount.toNat) := by
  obtain (rfl | rfl) | (rfl | rfl | rfl) := h <;> rfl

theorem responseLength_plainWrite (h : IsPlainWrite fc) (byteCount : Byte) : responseLength fc byteCount = some 8 := by
  obtain rfl | rfl | rfl | rfl := h <;> rfl

theorem responseLength_maskWrite (h : IsMaskWrite fc) (byteCount : Byte) : responseLength fc byteCount = some 10 := by
  subst h
  rfl

/-- A code with a length rule has bit 7 clear, so that masking the exception bit off keeps it (R78, R81). -/
theorem clearBit_of_responseLength {byteCount : Byte} {n : Nat} (h : responseLength fc byteCount = some n) :
    maskedFunction fc = fc ∧ exceptionBit fc = false := by
  have hlisted : listedCode fc = true := by
    unfold responseLength at h
    unfold listedCode
    split at h <;> simp_all
  clear h
  revert fc
  decide

end

section
variable {s : State}

theorem disassemble_bitRead (h : IsBitRead s.reqFc) : disassemble s = fillBank (disasmBits (payload s)) s := by
  unfold disassemble
  obtain h | h := h <;> rw [h] <;> rfl

theorem disassemble_wordRead (h : IsWordRead s.reqFc) : disassemble s = fillBank (disasmWords (payload s)) s := by
  unfold disassemble
  obtain h | h | h := h <;> rw [h] <;> rfl

theorem disassemble_write (h : IsPlainWrite s.reqFc ∨ IsMaskWrite s.reqFc) : disassemble s = s := by
  unfold disassemble
  obtain (h | h | h | h) | h := h <;> rw [h] <;> rfl

/-- A read of byte count 0 empties the bank and leaves its stale registers (R170). -/
theorem disassemble_of_noPayload (h : IsBitRead s.reqFc ∨ IsWordRead s.reqFc) (hcount : rxByte s 2 = 0#8) :
    disassemble s = { s with bankLen := 0 } := by
  have hpayload : payload s = [] := by
    rw [payload, hcount]
    exact List.take_zero
  obtain h | h := h
  · rw [disassemble_bitRead h, hpayload]
    rfl
  · rw [disassemble_wordRead h, hpayload]
    rfl

theorem complete_of_crc (h : crcCheck (rxBytes s) = true) : complete s = finish .success (disassemble s) := if_pos h

theorem complete_of_badCrc (h : crcCheck (rxBytes s) = false) : complete s = finish .invalidCrc s :=
  if_neg (by simp [h])

theorem rxBytes_eq_map_rxByte (h : s.rxLen ≤ rxCap) : rxBytes s = (List.range s.rxLen).map (rxByte s) := by
  refine List.ext_getElem (by simp [rxBytes, h]) fun i hi hi' => ?_
  rw [List.getElem_map, List.getElem_range]
  exact (rxByte_of_rxBytes (List.getElem?_eq_getElem hi)).symm

end

/-! The poll of the fifth byte, where the header passes. -/

section
variable {s : State} {b : Byte} {rest : List Byte} {n : Nat}

theorem engineStep_fifth_passed (hphase : s.phase = .awaitingHeader) (hlen : s.rxLen = 4)
    (hd : s.timer < s.cfg.deadlineTicks) (hp : s.pending = b :: rest) (hslave : rxByte s 0 = s.reqSlave)
    (hfc : rxByte s 1 = s.reqFc) (hn : responseLength s.reqFc (rxByte s 2) = some n) :
    engineStep s = .next (completeStage (awaitBody n (afterRead s b))) := by
  have hbyte (i : Nat) (hi : i < 4) : rxByte (afterRead s b) i = rxByte s i := rxByte_afterRead_ne (by omega)
  obtain ⟨hmask, hbit⟩ := clearBit_of_responseLength hn
  rw [engineStep_fifth hphase hlen hd hp, headerCheck_of_length (n := n), andThen_next]
  · rw [hbyte 0 (by decide)]
    exact hslave
  · rw [hbyte 1 (by decide), hfc]
    exact hmask
  · rw [hbyte 1 (by decide), hfc]
    exact hbit
  · rw [hbyte 2 (by decide)]
    exact hn

/-- A response of byte count 0 is complete at its fifth byte (R134, R135). -/
theorem complete_noPayload (hlen : s.rxLen = 4) (hread : IsBitRead s.reqFc ∨ IsWordRead s.reqFc)
    (hcount : rxByte s 2 = 0#8) :
    complete (awaitBody 5 (afterRead s b)) =
      if withWireCrc [rxByte s 0, rxByte s 1, rxByte s 2] = [rxByte s 0, rxByte s 1, rxByte s 2, rxByte s 3, b] then
        { afterRead s b with expected := some 5, phase := .done, status := some .success, bankLen := 0 }
      else { afterRead s b with expected := some 5, phase := .done, status := some .invalidCrc } := by
  have hbytes : rxBytes (awaitBody 5 (afterRead s b)) = [rxByte s 0, rxByte s 1, rxByte s 2, rxByte s 3, b] := by
    have hfour : rxBytes s = [rxByte s 0, rxByte s 1, rxByte s 2, rxByte s 3] := by
      rw [rxBytes_eq_map_rxByte (by rw [hlen]; decide), hlen]
      rfl
    calc rxBytes (awaitBody 5 (afterRead s b)) = rxBytes s ++ [b] := rxBytes_afterRead (by rw [hlen]; decide)
      _ = _ := by rw [hfour]; rfl
  have hcrc : crcCheck (rxBytes (awaitBody 5 (afterRead s b))) = true ↔
      withWireCrc [rxByte s 0, rxByte s 1, rxByte s 2] = [rxByte s 0, rxByte s 1, rxByte s 2, rxByte s 3, b] := by
    rw [hbytes, crcCheck_iff_eq_appendCrc]
    exact ⟨fun h => h.2.symm, fun h => ⟨by simp, h.symm⟩⟩
  split
  · have hcount' : rxByte (awaitBody 5 (afterRead s b)) 2 = 0#8 := (rxByte_afterRead_ne (by omega)).trans hcount
    rw [complete_of_crc (hcrc.mpr ‹_›), disassemble_of_noPayload (s := awaitBody 5 (afterRead s b)) hread hcount']
    rfl
  · rw [complete_of_badCrc (by simpa using mt hcrc.mp ‹_›)]
    rfl

end

/-- Settles O30: the header check's branch, and where it passes the length by the code's class. -/
theorem headerCheckAtTheFifthByte : Obligations.HeaderCheckAtTheFifthByte := by
  intro s b rest hphase hlen hd hp
  have hstep := engineStep_fifth hphase hlen hd hp
  have hbyte (i : Nat) (hi : i < 4) : rxByte (afterRead s b) i = rxByte s i := rxByte_afterRead_ne (by omega)
  have h0 := hbyte 0 (by decide)
  have h1 := hbyte 1 (by decide)
  have hmore {n : Nat} (hn : n ≠ 5) : completeStage (awaitBody n (afterRead s b)) = awaitBody n (afterRead s b) :=
    completeStage_awaitBody_of_ne (by rwa [afterRead_rxLen, hlen])
  refine ⟨fun hslave => ?_, fun hslave hfc => ?_, fun hslave hfc hbit => ?_, fun hslave hfc hbit =>
    ⟨fun hread hcount => ?_, fun hwrite => ?_, fun hmask => ?_, fun hread hcount => ?_⟩⟩
  · rw [hstep, headerCheck_of_slave (h0 ▸ hslave), andThen_next, completeStage_finish]
    rfl
  · rw [hstep, headerCheck_of_function (h0 ▸ hslave) (h1 ▸ hfc), andThen_next, completeStage_finish]
    rfl
  · rw [hstep, headerCheck_of_exception (h0 ▸ hslave) (h1 ▸ hfc) (h1 ▸ hbit), andThen_next, completeStage_finish,
      hbyte 2 (by decide)]
    rfl
  · have hpos : 5 + (rxByte s 2).toNat ≠ 5 := fun h => hcount (BitVec.eq_of_toNat_eq (Nat.add_left_cancel h))
    rw [engineStep_fifth_passed hphase hlen hd hp hslave hfc (responseLength_read hread _), hmore hpos]
    rfl
  · rw [engineStep_fifth_passed hphase hlen hd hp hslave hfc (responseLength_plainWrite hwrite _), hmore (by decide)]
    rfl
  · rw [engineStep_fifth_passed hphase hlen hd hp hslave hfc (responseLength_maskWrite hmask _), hmore (by decide)]
    rfl
  · have hn : responseLength s.reqFc (rxByte s 2) = some 5 := by rw [responseLength_read hread, hcount]; rfl
    have hfull : (afterRead s b).rxLen = 5 := by rw [afterRead_rxLen, hlen]
    have hend := completeStage_awaitBody_self (s := afterRead s b)
    rw [hfull] at hend
    rw [engineStep_fifth_passed hphase hlen hd hp hslave hfc hn, hend, complete_noPayload hlen hread hcount]

end Sys2Proof.Machine

/-! A whole response, from its first byte to its completion (30_encoding.md R74 to R76, 42_transaction.md R131 to
R136). -/

namespace Sys2Proof.Machine

/-- The state where every byte of the response is read and its completion is due. -/
def responseRead (s : State) (frame : List Byte) : State := awaitBody frame.length (afterReads s frame)

section
variable {s : State} {frame data rest : List Byte} {d : Byte}

/-- A pending response to this request, of the length its third byte gives, is read to its end and completed (R131 to
R135). -/
theorem runTurns_response (hphase : s.phase = .awaitingHeader) (hlen : s.rxLen = 0)
    (hd : s.timer < s.cfg.deadlineTicks) (hp : s.pending = frame ++ rest) (hslave : frame[0]? = some s.reqSlave)
    (hfc : frame[1]? = some s.reqFc) (hthird : frame[2]? = some d)
    (hn : responseLength s.reqFc d = some frame.length) :
    runTurns (engineTurns frame.length) s = .next (complete (responseRead s frame)) := by
  obtain ⟨hmin, hmax⟩ := responseLength_range hn
  obtain ⟨hmask, hbit⟩ := clearBit_of_responseLength hn
  have hfive : (frame.take 5).length = 5 := List.length_take_of_le hmin
  have hp' : s.pending = frame.take 5 ++ (frame.drop 5 ++ rest) := by
    rw [← List.append_assoc, List.take_append_drop, hp]
  have hbytes : rxBytes (afterReads s (frame.take 5)) = frame.take 5 :=
    rxBytes_afterReads_of_empty hlen (by rw [hfive]; decide)
  have hbyte {i : Nat} {b : Byte} (hi : i < 5) (h : frame[i]? = some b) :
      rxByte (afterReads s (frame.take 5)) i = b :=
    rxByte_of_rxBytes (by rw [hbytes, List.getElem?_take_of_lt hi, h])
  have hcheck : headerCheck (afterReads s (frame.take 5)) =
      .next (awaitBody frame.length (afterReads s (frame.take 5))) := by
    apply headerCheck_of_length
    · rw [hbyte (by decide) hslave, afterReads_reqSlave]
    · rw [hbyte (by decide) hfc, afterReads_reqFc, hmask]
    · rw [hbyte (by decide) hfc, hbit]
    · rw [hbyte (by decide) hthird, afterReads_reqFc, hn]
  have hturns : engineTurns frame.length = engineTurns 5 ++ engineTurns (frame.drop 5).length := by
    rw [engineTurns, engineTurns, engineTurns, List.replicate_append_replicate, List.length_drop,
      Nat.add_sub_cancel' hmin]
  have hend : afterReads (awaitBody frame.length (afterReads s (frame.take 5))) (frame.drop 5) = responseRead s frame := by
    rw [responseRead, afterReads_awaitBody, ← afterReads_append, List.take_append_drop]
  have hrxLen : (awaitBody frame.length (afterReads s (frame.take 5))).rxLen + (frame.drop 5).length = frame.length := by
    simp only [awaitBody, afterReads_rxLen, hlen, hfive, List.length_drop]
    omega
  rw [hturns, runTurns_append, runTurns_fiveReads hphase hlen hd hfive hp', hcheck, andThen_next, andThen_next, ← hend]
  refine runTurns_body (rest := rest) rfl ?_ ?_ ?_ (afterReads_pending hp')
  · rw [hrxLen]
    rfl
  · rwa [hrxLen]
  · simpa [awaitBody] using hd

theorem responseFrame_length (body : List Byte) : (withWireCrc body).length = body.length + 2 := by
  rw [← appendCrc_eq_withWireCrc, appendCrc_length]

@[simp] theorem responseRead_reqFc : (responseRead s frame).reqFc = s.reqFc := afterReads_reqFc

theorem rxBytes_responseRead (hlen : s.rxLen = 0) (hcap : frame.length ≤ rxCap) :
    rxBytes (responseRead s frame) = frame := rxBytes_afterReads_of_empty hlen hcap

/-- A pending response of the right length and CRC ends in Success, with its payload disassembled (R135, R136). -/
theorem runTurns_goodResponse (hphase : s.phase = .awaitingHeader) (hlen : s.rxLen = 0)
    (hd : s.timer < s.cfg.deadlineTicks) (hn : responseLength s.reqFc d = some (5 + data.length))
    (hp : s.pending = withWireCrc (s.reqSlave :: s.reqFc :: d :: data) ++ rest) :
    runTurns (engineTurns (5 + data.length)) s =
      .next (finish .success (disassemble (responseRead s (withWireCrc (s.reqSlave :: s.reqFc :: d :: data))))) := by
  have hframe : 5 + data.length = (withWireCrc (s.reqSlave :: s.reqFc :: d :: data)).length := by
    simp only [responseFrame_length, List.length_cons]
    omega
  rw [hframe] at hn ⊢
  rw [runTurns_response hphase hlen hd hp rfl rfl rfl hn, complete_of_crc]
  rw [rxBytes_responseRead hlen (responseLength_range hn).2]
  exact crcCheck_appendCrc _

end

/-- Settles O49: the response is read and completed, and a write's disassembly changes nothing. -/
theorem goodWriteResponseEndsInSuccess : Obligations.GoodWriteResponseEndsInSuccess := by
  intro s data rest hphase hlen hd hwrite hp
  cases data with
  | nil => simp at hwrite
  | cons d data =>
    have hn : responseLength s.reqFc d = some (5 + data.length) := by
      obtain ⟨hfc, hdata⟩ | ⟨hfc, hdata⟩ := hwrite
      · rw [responseLength_plainWrite hfc, show data.length = 3 from Nat.succ.inj hdata]
      · rw [responseLength_maskWrite hfc, show data.length = 5 from Nat.succ.inj hdata]
    have hcount : 4 + (d :: data).length = 5 + data.length := by rw [List.length_cons]; omega
    have hrun := runTurns_goodResponse hphase hlen hd hn hp
    rw [disassemble_write (by simpa using hwrite.imp And.left And.left)] at hrun
    rw [hcount]
    refine ⟨_, hrun, rfl, rfl, ?_⟩
    simp [responseRead, awaitBody, responseFrame_length, hlen, afterReads_pending hp, Nat.add_comm 5]

/-! A read's payload in the bank (44_register_bank.md R170 to R172). -/

section
variable {s : State} {p : List Byte} {i : Nat} {lo hi : Byte}

/-- Each pair of payload bytes is a register, low byte first (R171). -/
theorem disasmBits_getElem?_pair (hlo : p[2 * i]? = some lo) (hhi : p[2 * i + 1]? = some hi) :
    (disasmBits p)[i]? = some (word hi lo) := by
  induction p using disasmBits.induct generalizing i with
  | case1 => simp at hlo
  | case2 => simp at hhi
  | case3 x y rest ih =>
    cases i with
    | zero => simp_all [disasmBits]
    | succ i => exact ih hlo hhi

/-- A trailing odd byte is the low byte of the last register (R171). -/
theorem disasmBits_getElem?_last (hlast : 2 * i + 1 = p.length) (hlo : p[2 * i]? = some lo) :
    (disasmBits p)[i]? = some (word 0x00#8 lo) := by
  induction p using disasmBits.induct generalizing i with
  | case1 => simp at hlo
  | case2 x =>
    obtain rfl : i = 0 := by simpa using hlast
    simp_all [disasmBits]
  | case3 x y rest ih =>
    cases i with
    | zero => simp at hlast
    | succ i => exact ih (by simp only [List.length_cons] at hlast; omega) hlo

/-- Each pair of payload bytes is a register, high byte first (R172). -/
theorem disasmWords_getElem?_pair (hhi : p[2 * i]? = some hi) (hlo : p[2 * i + 1]? = some lo) :
    (disasmWords p)[i]? = some (word hi lo) := by
  induction p using disasmWords.induct generalizing i with
  | case1 => simp at hhi
  | case2 => simp at hlo
  | case3 x y rest ih =>
    cases i with
    | zero => simp_all [disasmWords]
    | succ i => exact ih hhi hlo

theorem bankReg_fillBank_of_getElem? {regs : List Reg} {r : Reg} (hi : i < bankCap) (h : regs[i]? = some r) :
    bankReg (fillBank regs s) i = r := by
  obtain ⟨hlt, h⟩ := List.getElem?_eq_some_iff.mp h
  rw [bankReg_fillBank hi, dif_pos hlt, h]

/-- The payload is the bytes after the byte count, as many as it says (R74, R170). -/
theorem payload_of_rxBytes {slave fc byteCount : Byte} {tail : List Byte}
    (h : rxBytes s = slave :: fc :: byteCount :: (p ++ tail)) (hcount : byteCount.toNat = p.length) :
    payload s = p := by
  have hthird : rxByte s 2 = byteCount := rxByte_of_rxBytes (by rw [h]; rfl)
  have hrx : s.rx.toList = slave :: fc :: byteCount :: (p ++ tail) ++ s.rx.toList.drop s.rxLen := by
    rw [← h, rxBytes, List.take_append_drop]
  rw [payload, hthird, hcount, hrx]
  simp

/-- A read's disassembly fills the bank (R170). -/
theorem disassemble_read (h : IsBitRead s.reqFc ∨ IsWordRead s.reqFc) : ∃ regs, disassemble s = fillBank regs s :=
  h.elim (fun h => ⟨_, disassemble_bitRead h⟩) fun h => ⟨_, disassemble_wordRead h⟩

/-- The bank after a bit-oriented read (R171). -/
theorem disassemble_bitRead_bank (h : IsBitRead s.reqFc) (hp : payload s = p) (hsize : p.length ≤ 255) :
    (disassemble s).bankLen = (p.length + 1) / 2 ∧
    (∀ (i : Nat) (lo hi : Byte), p[2 * i]? = some lo → p[2 * i + 1]? = some hi →
      bankReg (disassemble s) i = hi ++ lo) ∧
    (∀ (i : Nat) (lo : Byte), 2 * i + 1 = p.length → p[2 * i]? = some lo →
      bankReg (disassemble s) i = 0x00#8 ++ lo) := by
  rw [disassemble_bitRead h, hp]
  refine ⟨disasmBits_length p, fun i lo hi hlo hhi => ?_, fun i lo hlast hlo => ?_⟩
  all_goals
    obtain ⟨hlt, -⟩ := List.getElem?_eq_some_iff.mp hlo
    refine bankReg_fillBank_of_getElem? (by rw [bankCap]; omega) ?_
  · exact disasmBits_getElem?_pair hlo hhi
  · exact disasmBits_getElem?_last hlast hlo

/-- The bank after a word-oriented read (R172). -/
theorem disassemble_wordRead_bank (h : IsWordRead s.reqFc) (hp : payload s = p) (hsize : p.length ≤ 255) :
    (disassemble s).bankLen = p.length / 2 ∧
    (∀ (i : Nat) (hi lo : Byte), p[2 * i]? = some hi → p[2 * i + 1]? = some lo →
      bankReg (disassemble s) i = hi ++ lo) := by
  rw [disassemble_wordRead h, hp]
  refine ⟨disasmWords_length p, fun i hi lo hhi hlo => ?_⟩
  obtain ⟨hlt, -⟩ := List.getElem?_eq_some_iff.mp hhi
  exact bankReg_fillBank_of_getElem? (by rw [bankCap]; omega) (disasmWords_getElem?_pair hhi hlo)

end

/-- Settles O48: the response is read and completed, and its payload fills the bank in the code's packing. -/
theorem goodReadResponseEndsInSuccess : Obligations.GoodReadResponseEndsInSuccess := by
  intro s p rest hphase hlen hd hsize hread hp
  have hcount : (BitVec.ofNat 8 p.length).toNat = p.length := by rw [BitVec.toNat_ofNat]; omega
  have hn : responseLength s.reqFc (BitVec.ofNat 8 p.length) = some (5 + p.length) := by
    rw [responseLength_read hread, hcount]
  have hrun := runTurns_goodResponse hphase hlen hd hn hp
  set frame := withWireCrc (s.reqSlave :: s.reqFc :: BitVec.ofNat 8 p.length :: p) with hdef
  have hframe : frame.length = 5 + p.length := by
    rw [hdef, responseFrame_length]
    simp only [List.length_cons]
    omega
  have htake : s.pending.take (5 + p.length) = frame := by rw [hp, ← hframe, List.take_left]
  have hpayload : payload (responseRead s frame) = p :=
    payload_of_rxBytes (rxBytes_responseRead hlen (by rw [hframe, rxCap]; omega)) hcount
  obtain ⟨regs, hfill⟩ := disassemble_read (s := responseRead s frame) (by rwa [responseRead_reqFc])
  refine ⟨_, hrun, rfl, rfl, ?_, ?_, ?_, ?_, ?_, ?_, ?_,
    fun hbit => disassemble_bitRead_bank (by rwa [responseRead_reqFc]) hpayload hsize,
    fun hword => disassemble_wordRead_bank (by rwa [responseRead_reqFc]) hpayload hsize⟩
  all_goals
    rw [hfill]
    simp [responseRead, awaitBody, hframe, hlen, afterReads_pending hp, htake]

end Sys2Proof.Machine

/-! The engine's turn and the transport's do the same whatever turns are still to come (20_memory.md R62, log 1). -/

namespace Sys2Proof.Machine

/-- The state with these turns still to come. -/
def setSchedule (turns : List Turn) (s : State) : State := { s with schedule := turns }

/-- The outcome with these turns still to come, where it is a next state. -/
def resultSchedule (turns : List Turn) (r : Result) : Result := andThen r fun t => .next (setSchedule turns t)

section
variable {s : State} {turns : List Turn}

@[simp] theorem resultSchedule_next : resultSchedule turns (.next s) = .next (setSchedule turns s) := rfl

/-! Each of the engine's steps, in the order of Machine/Engine.lean. -/

theorem drain_setSchedule : drain (setSchedule turns s) = setSchedule turns (drain s) := by
  dsimp only [drain, readAnswer, setSchedule]
  split_ifs
  · rfl
  · split <;> rfl

theorem preHook_setSchedule : preHook (setSchedule turns s) = setSchedule turns (preHook s) := by
  dsimp only [preHook, callPreHook, setSchedule]
  split_ifs <;> rfl

theorem tx_setSchedule : tx (setSchedule turns s) = resultSchedule turns (tx s) := by
  dsimp only [tx, setSchedule]
  split <;> rfl

theorem postHook_setSchedule : postHook (setSchedule turns s) = setSchedule turns (postHook s) := by
  dsimp only [postHook, callPostHook, setSchedule]
  split_ifs <;> rfl

theorem settle_setSchedule : settle (setSchedule turns s) = setSchedule turns (settle s) := by
  dsimp only [settle, setSchedule]
  split_ifs <;> rfl

theorem sendingStep_setSchedule : sendingStep (setSchedule turns s) = resultSchedule turns (sendingStep s) := by
  have hstep : (setSchedule turns s).sendStep = s.sendStep := rfl
  rw [sendingStep, sendingStep, hstep]
  cases s.sendStep with
  | drain => exact congrArg _ drain_setSchedule
  | preHook => exact congrArg _ preHook_setSchedule
  | tx => exact tx_setSchedule
  | flush => rfl
  | postHook => exact congrArg _ postHook_setSchedule
  | settle => exact congrArg _ settle_setSchedule

theorem disassemble_setSchedule : disassemble (setSchedule turns s) = setSchedule turns (disassemble s) := by
  dsimp only [disassemble, setSchedule]
  split <;> rfl

theorem complete_setSchedule : complete (setSchedule turns s) = setSchedule turns (complete s) := by
  cases h : crcCheck (rxBytes s) with
  | true =>
    rw [complete_of_crc h, complete_of_crc (s := setSchedule turns s) h, disassemble_setSchedule]
    rfl
  | false =>
    rw [complete_of_badCrc h, complete_of_badCrc (s := setSchedule turns s) h]
    rfl

theorem completeStage_setSchedule : completeStage (setSchedule turns s) = setSchedule turns (completeStage s) := by
  obtain ⟨hp, hn, h⟩ | ⟨hopen, h⟩ := completeStage_cases s
  · rw [h, ← complete_setSchedule]
    exact if_pos ⟨hp, hn⟩
  · rw [h]
    exact if_neg hopen

theorem headerCheck_setSchedule : headerCheck (setSchedule turns s) = resultSchedule turns (headerCheck s) := by
  by_cases hslave : rxByte s 0 = s.reqSlave
  case neg => rw [headerCheck_of_slave hslave, headerCheck_of_slave (s := setSchedule turns s) hslave]; rfl
  by_cases hfc : maskedFunction (rxByte s 1) = s.reqFc
  case neg =>
    rw [headerCheck_of_function hslave hfc, headerCheck_of_function (s := setSchedule turns s) hslave hfc]
    rfl
  cases hbit : exceptionBit (rxByte s 1) with
  | true =>
    rw [headerCheck_of_exception hslave hfc hbit, headerCheck_of_exception (s := setSchedule turns s) hslave hfc hbit]
    rfl
  | false =>
    cases hn : responseLength s.reqFc (rxByte s 2) with
    | none =>
      rw [headerCheck_of_noLength hslave hfc hbit hn,
        headerCheck_of_noLength (s := setSchedule turns s) hslave hfc hbit hn]
      rfl
    | some n =>
      rw [headerCheck_of_length hslave hfc hbit hn,
        headerCheck_of_length (s := setSchedule turns s) hslave hfc hbit hn]
      rfl

theorem headerStage_setSchedule : headerStage (setSchedule turns s) = resultSchedule turns (headerStage s) := by
  by_cases h : s.phase = .awaitingHeader ∧ s.rxLen = 5
  · rw [headerStage, headerStage, if_pos h, ← headerCheck_setSchedule]
    exact if_pos h
  · rw [headerStage, headerStage, if_neg h]
    exact if_neg h

theorem takeByte_setSchedule (b : Byte) :
    takeByte b (setSchedule turns s) = resultSchedule turns (takeByte b s) := by
  have hheader : headerStage (rxAppend b (setSchedule turns s)) = resultSchedule turns (headerStage (rxAppend b s)) :=
    headerStage_setSchedule (s := rxAppend b s)
  by_cases h : s.rxLen < rxCap
  · have h' : (setSchedule turns s).rxLen < rxCap := h
    rw [takeByte, takeByte, if_pos h, if_pos h', hheader]
    cases headerStage (rxAppend b s) with
    | fault | refused => rfl
    | next t => exact congrArg _ completeStage_setSchedule
  · rw [takeByte, takeByte, if_neg h]
    exact if_neg h

theorem poll_setSchedule : poll (setSchedule turns s) = resultSchedule turns (poll s) := by
  by_cases hd : s.cfg.deadlineTicks ≤ s.timer
  · rw [poll, poll, if_pos hd]
    exact if_pos hd
  · have hd' : ¬ (setSchedule turns s).cfg.deadlineTicks ≤ (setSchedule turns s).timer := hd
    have hread : readAnswer (setSchedule turns s) = readAnswer s := rfl
    rw [poll, poll, if_neg hd, if_neg hd', hread]
    cases readAnswer s with
    | none => rfl
    | some b => exact takeByte_setSchedule (s := tryRead s) b

theorem engineStep_setSchedule : engineStep (setSchedule turns s) = resultSchedule turns (engineStep s) := by
  have hphase : (setSchedule turns s).phase = s.phase := rfl
  rw [engineStep, engineStep, hphase]
  cases s.phase with
  | idle | done => rfl
  | sending => exact sendingStep_setSchedule
  | awaitingHeader | awaitingBody => exact poll_setSchedule

/-- An engine's turn, or an arrival. -/
def IsEngineOrArrival (u : Turn) : Prop := u = .engine ∨ ∃ b, u = .arrive b

theorem takeTurn_setSchedule {u : Turn} (hu : IsEngineOrArrival u) :
    takeTurn u (setSchedule turns s) = resultSchedule turns (takeTurn u s) := by
  obtain rfl | ⟨b, rfl⟩ := hu
  · exact engineStep_setSchedule
  · rfl

/-- Engine turns and arrivals at the head of the schedule are run in as many steps, and the rest is left (R62). -/
theorem runSteps_of_schedule {first rest : List Turn} (hfirst : ∀ u ∈ first, IsEngineOrArrival u)
    (hs : s.schedule = first ++ rest) :
    runSteps first.length s = runTurns first (setSchedule rest s) := by
  induction first generalizing s with
  | nil => rw [List.nil_append] at hs; subst hs; rfl
  | cons u first ih =>
    have hu : IsEngineOrArrival u := hfirst u List.mem_cons_self
    have hstep : step s = resultSchedule (first ++ rest) (takeTurn u s) :=
      (step_of_schedule_cons hs).trans (takeTurn_setSchedule hu)
    rw [List.length_cons, runSteps_succ, hstep, runTurns_cons, takeTurn_setSchedule hu]
    cases takeTurn u s with
    | fault | refused => rfl
    | next t =>
      simp only [resultSchedule_next, andThen_next]
      exact ih (s := setSchedule (first ++ rest) t) (fun v hv => hfirst v (List.mem_cons_of_mem u hv)) rfl

end

end Sys2Proof.Machine

/-! An exception response: the turns it schedules, and how they end the transaction (30_encoding.md R77, R81, R82,
42_transaction.md R133, log 4). -/

namespace Sys2Proof.Machine

section
variable {s u : State} {slave code crcLo crcHi : Byte} {fc : BitVec 7}

theorem exec_exceptionResponse : exec (.exceptionResponse slave fc code crcLo crcHi) s =
    .next (comeNext (exceptionTurns fc code crcLo crcHi s) (arrive slave s)) := rfl

theorem exceptionTurns_eq : exceptionTurns fc code crcLo crcHi s =
    [.arrive (1#1 ++ fc), .arrive code, .arrive crcLo, .arrive crcHi] ++
      if receiving s then engineTurns 5 else [] := rfl

theorem exceptionTurns_of_receiving (h : receiving s = true) :
    exceptionTurns fc code crcLo crcHi s = [1#1 ++ fc, code, crcLo, crcHi].map Turn.arrive ++ engineTurns 5 := by
  rw [exceptionTurns_eq, if_pos h]
  rfl

theorem exceptionTurns_of_not_receiving (h : receiving s = false) :
    exceptionTurns fc code crcLo crcHi s = [1#1 ++ fc, code, crcLo, crcHi].map Turn.arrive := by
  rw [exceptionTurns_eq, if_neg (by simp [h]), List.append_nil]
  rfl

theorem exceptionTurns_isEngineOrArrival : ∀ v ∈ exceptionTurns fc code crcLo crcHi s, IsEngineOrArrival v := by
  intro v hv
  rw [exceptionTurns, List.mem_append] at hv
  obtain hv | hv := hv
  · simp only [List.mem_cons, List.not_mem_nil, or_false] at hv
    obtain rfl | rfl | rfl | rfl := hv <;> exact .inr ⟨_, rfl⟩
  · split_ifs at hv
    · exact .inl (List.eq_of_mem_replicate hv)
    · exact absurd hv List.not_mem_nil

/-- The row and its scheduled turns are the arrival of its first byte and then these turns (log 4). -/
theorem runSteps_exceptionResponse (h : exec (.exceptionResponse slave fc code crcLo crcHi) s = .next u) :
    runSteps (exceptionTurns fc code crcLo crcHi s).length u =
      runTurns (.arrive slave :: exceptionTurns fc code crcLo crcHi s) s := by
  injection h with h
  have hschedule : u.schedule = exceptionTurns fc code crcLo crcHi s ++ s.schedule := by rw [← h]; rfl
  have harrive : setSchedule s.schedule u = arrive slave s := by rw [← h]; rfl
  rw [runSteps_of_schedule exceptionTurns_isEngineOrArrival hschedule, harrive, runTurns_cons, takeTurn_arrive,
    andThen_next]

/-- Arriving bytes join the tail of `pending` in their order (R139). -/
theorem runTurns_arrivals (bytes : List Byte) (s : State) :
    runTurns (bytes.map Turn.arrive) s = .next { s with pending := s.pending ++ bytes } := by
  induction bytes generalizing s with
  | nil => simp
  | cons b bytes ih => simp [ih, arrive]

theorem runSteps_exceptionResponse_of_receiving (hr : receiving s = true)
    (h : exec (.exceptionResponse slave fc code crcLo crcHi) s = .next u) :
    runSteps 9 u = runTurns ([slave, 1#1 ++ fc, code, crcLo, crcHi].map Turn.arrive ++ engineTurns 5) s := by
  have hlength : (exceptionTurns fc code crcLo crcHi s).length = 9 := by
    rw [exceptionTurns_of_receiving hr]
    rfl
  rw [← hlength, runSteps_exceptionResponse h, exceptionTurns_of_receiving hr, ← List.cons_append, ← List.map_cons]

theorem runSteps_exceptionResponse_of_not_receiving (hr : receiving s = false)
    (h : exec (.exceptionResponse slave fc code crcLo crcHi) s = .next u) :
    runSteps 4 u = .next { s with pending := s.pending ++ [slave, 1#1 ++ fc, code, crcLo, crcHi] } := by
  have hlength : (exceptionTurns fc code crcLo crcHi s).length = 4 := by
    rw [exceptionTurns_of_not_receiving hr]
    rfl
  rw [← hlength, runSteps_exceptionResponse h, exceptionTurns_of_not_receiving hr, ← List.map_cons, runTurns_arrivals]

theorem maskedFunction_exceptionByte (fc : BitVec 7) : maskedFunction (1#1 ++ fc) = 0#1 ++ fc := by
  revert fc
  decide

/-- How an exception response ends the transaction it answers: the slave, then the function, then its code (R133). -/
def exceptionStatus (s : State) (slave : Byte) (fc : BitVec 7) (code : Byte) : Status :=
  if slave ≠ s.reqSlave then .invalidSlaveId
  else if (0#1 ++ fc : Byte) ≠ s.reqFc then .invalidFunction
  else .modbusException code

theorem headerCheck_exceptionResponse (h : rxBytes s = [slave, 1#1 ++ fc, code, crcLo, crcHi]) :
    headerCheck s = .next (finish (exceptionStatus s slave fc code) s) := by
  have h0 : rxByte s 0 = slave := rxByte_of_rxBytes (by rw [h]; rfl)
  have h1 : rxByte s 1 = 1#1 ++ fc := rxByte_of_rxBytes (by rw [h]; rfl)
  have h2 : rxByte s 2 = code := rxByte_of_rxBytes (by rw [h]; rfl)
  have hmask : maskedFunction (rxByte s 1) = 0#1 ++ fc := by rw [h1, maskedFunction_exceptionByte]
  have hbit : exceptionBit (rxByte s 1) = true := by rw [h1]; exact getLsbD_exceptionByte fc
  rw [← h0, ← h2]
  unfold exceptionStatus
  rw [← hmask]
  split_ifs with hslave hfc
  · exact headerCheck_of_slave hslave
  · exact headerCheck_of_function (not_not.mp hslave) hfc
  · exact headerCheck_of_exception (not_not.mp hslave) (not_not.mp hfc) hbit

/-- An exception response that waits whole before the deadline ends the transaction at its fifth byte, its CRC unchecked
(R133). -/
theorem runTurns_exceptionResponse (hphase : s.phase = .awaitingHeader) (hlen : s.rxLen = 0)
    (hd : s.timer < s.cfg.deadlineTicks) (hp : s.pending = [slave, 1#1 ++ fc, code, crcLo, crcHi]) :
    runTurns (engineTurns 5) s = .next (finish (exceptionStatus s slave fc code)
      (afterReads s [slave, 1#1 ++ fc, code, crcLo, crcHi])) := by
  rw [runTurns_fiveReads (five := [slave, 1#1 ++ fc, code, crcLo, crcHi]) (rest := []) hphase hlen hd rfl hp,
    headerCheck_exceptionResponse (rxBytes_afterReads_of_empty hlen (by simp [rxCap])), andThen_next,
    completeStage_finish]
  simp only [exceptionStatus, afterReads_reqSlave, afterReads_reqFc]

end

/-- Settles O35: its turns are the schedule's head, and run as turns of their own; five polls then end in the header
check. -/
theorem exceptionResponseEndsTheTransaction : Obligations.ExceptionResponseEndsTheTransaction := by
  refine ⟨fun s slave fc code crcLo crcHi => ?_, fun s u slave fc code crcLo crcHi hphase hlen hp hd h => ?_,
    fun s u slave fc code crcLo crcHi hphase h => ?_,
    fun s u slave fc code crcLo crcHi hr h => runSteps_exceptionResponse_of_receiving hr h⟩
  · rw [exec_exceptionResponse, exceptionTurns_eq]
    rfl
  · have hend := runTurns_exceptionResponse (s := { s with pending := [slave, 1#1 ++ fc, code, crcLo, crcHi] })
      hphase hlen hd rfl
    rw [runSteps_exceptionResponse_of_receiving (receiving_iff.mpr (.inl hphase)) h, runTurns_append,
      runTurns_arrivals, andThen_next, hp, List.nil_append, hend]
    simp [finish, afterRead, exceptionStatus, hlen]
  · have hr : receiving s = false := by obtain hp | hp | hp := hphase <;> rw [receiving, hp]
    exact runSteps_exceptionResponse_of_not_receiving hr h

end Sys2Proof.Machine

/-! The CRC's rounds lose nothing, so the running CRC tells apart its start and each of its bytes (40_crc.md R100,
R101). -/

namespace Sys2Proof.Machine

/-- A round moves bit 0 to bit 15: the shift clears it, and 0xA001 sets it exactly where bit 0 was set. -/
theorem crcRound_getLsbD_15 (c : Reg) : (crcRound c).getLsbD 15 = c.getLsbD 0 := by
  unfold crcRound
  split_ifs with h <;> simpa using h

/-- Bit 15 of a round's result says which of the two shifts it was, and the shift keeps every bit but bit 0. -/
theorem crcRound_injective : Function.Injective crcRound := by
  intro c d h
  have hlow : c.getLsbD 0 = d.getLsbD 0 := by rw [← crcRound_getLsbD_15, h, crcRound_getLsbD_15]
  have hshift : c >>> 1 = d >>> 1 := by
    unfold crcRound at h
    rw [hlow] at h
    split_ifs at h
    · exact BitVec.xor_left_inj _ |>.mp h
    · exact h
  refine BitVec.eq_of_getLsbD_eq fun i _ => ?_
  cases i with
  | zero => exact hlow
  | succ i => simpa [Nat.add_comm] using congrArg (BitVec.getLsbD · i) hshift

theorem crcRounds_eq_iterate (n : Nat) (c : Reg) : crcRounds n c = crcRound^[n] c := by
  induction n generalizing c with
  | zero => rfl
  | succ n ih => exact ih (crcRound c)

theorem crcRounds_injective (n : Nat) : Function.Injective (crcRounds n) := by
  rw [funext (crcRounds_eq_iterate n)]
  exact crcRound_injective.iterate n

theorem crcUpdate_injective_start (b : Byte) : Function.Injective (crcUpdate · b) := fun _ _ h =>
  (BitVec.xor_left_inj _).mp (crcRounds_injective 8 h)

theorem crcUpdate_injective_byte (c : Reg) : Function.Injective (crcUpdate c) := by
  intro a b h
  have hzext : a.setWidth 16 = b.setWidth 16 := (BitVec.xor_right_inj _).mp (crcRounds_injective 8 h)
  simpa using congrArg (BitVec.setWidth 8) hzext

theorem crcFrom_injective_start (data : List Byte) : Function.Injective (crcFrom · data) := by
  induction data with
  | nil => exact Function.injective_id
  | cons b data ih => exact ih.comp (crcUpdate_injective_start b)

/-- One byte replaced leaves the CRC as it was only where the byte is as it was: up to it the running CRCs are equal, and
from there on they never meet again. -/
theorem eq_of_crcFrom_set_eq {c : Reg} {data : List Byte} {k : Nat} {a b : Byte} (hk : data[k]? = some b)
    (h : crcFrom c (data.set k a) = crcFrom c data) : a = b := by
  induction data generalizing k c with
  | nil => cases hk
  | cons e data ih =>
    cases k with
    | zero =>
      obtain rfl : e = b := Option.some.inj hk
      exact crcUpdate_injective_byte c (crcFrom_injective_start data h)
    | succ k => exact ih hk h

end Sys2Proof.Machine

/-! A right CRC leaves zero: its two bytes shift the running CRC out (40_crc.md R102, R103). -/

namespace Sys2Proof.Machine

/-- Rounds that meet no set bit only shift. -/
theorem crcRounds_of_lowBits_clear {n : Nat} {c : Reg} (h : ∀ i < n, c.getLsbD i = false) :
    crcRounds n c = c >>> n := by
  induction n generalizing c with
  | zero => exact (BitVec.ushiftRight_zero c).symm
  | succ n ih =>
    have hround : crcRound c = c >>> 1 := if_neg (by rw [h 0 (Nat.succ_pos n)]; exact Bool.false_ne_true)
    have hshifted : ∀ i < n, (c >>> 1).getLsbD i = false := fun i hi => by
      rw [BitVec.getLsbD_ushiftRight]
      exact h (1 + i) (by omega)
    rw [crcRounds, hround, ih hshifted, ← BitVec.shiftRight_add, Nat.add_comm]

theorem setWidth_eq_word (b : Byte) : b.setWidth 16 = word 0#8 b := BitVec.setWidth_eq_append (by decide)

theorem word_xor_word (h l h' l' : Byte) : word h l ^^^ word h' l' = word (h ^^^ h') (l ^^^ l') := BitVec.xor_append

theorem word_shiftRight_8 (h l : Byte) : word h l >>> 8 = word 0#8 h :=
  (BitVec.ushiftRight_eq_extractLsb'_of_lt (by decide)).trans (congrArg (word 0#8) (hi8_word h l))

/-- The byte equal to the low byte of the running CRC clears it, so eight rounds bring down the high byte. -/
theorem crcUpdate_word_low (hi lo : Byte) : crcUpdate (word hi lo) lo = word 0#8 hi := by
  have hcleared : word hi lo ^^^ lo.setWidth 16 = word hi 0#8 := by
    rw [setWidth_eq_word, word_xor_word, BitVec.xor_zero, BitVec.xor_self]
  have hlow : ∀ i < 8, (word hi 0#8).getLsbD i = false := fun i hlt => by
    rw [word, BitVec.getLsbD_append, if_pos hlt, BitVec.getLsbD_zero]
  rw [crcUpdate, hcleared, crcRounds_of_lowBits_clear hlow, word_shiftRight_8]

/-- Exactly its own two bytes, low byte first, bring the running CRC to zero (R103). -/
theorem crcFrom_pair_eq_zero_iff {c : Reg} {lo hi : Byte} : crcFrom c [lo, hi] = 0x0000#16 ↔ c = word hi lo := by
  have hzero : crcFrom (word hi lo) [lo, hi] = 0x0000#16 := by
    rw [crcFrom, List.foldl_cons, List.foldl_cons, List.foldl_nil, crcUpdate_word_low, crcUpdate_word_low]
    rfl
  rw [← hzero]
  exact (crcFrom_injective_start [lo, hi]).eq_iff

theorem eq_word_iff {c : Reg} {lo hi : Byte} : c = word hi lo ↔ lo = lo8 c ∧ hi = hi8 c := by
  constructor
  · rintro rfl
    exact ⟨(lo8_word hi lo).symm, (hi8_word hi lo).symm⟩
  · rintro ⟨rfl, rfl⟩
    exact (word_hi8_lo8 c).symm

theorem crcCheck_append_pair (body : List Byte) (lo hi : Byte) :
    crcCheck (body ++ [lo, hi]) = (lo == lo8 (crc16 body) && hi == hi8 (crc16 body)) := by
  rw [Bool.eq_iff_iff, Bool.and_eq_true, beq_iff_eq, beq_iff_eq]
  simp [crcCheck]

theorem crcCheck_of_short {frame : List Byte} (h : frame.length < 2) : crcCheck frame = false := if_pos h

theorem exists_eq_append_pair {frame : List Byte} (h : 2 ≤ frame.length) :
    ∃ body lo hi, frame = body ++ [lo, hi] := by
  obtain ⟨lo, hi, hlast⟩ := List.length_eq_two.mp (show (frame.drop (frame.length - 2)).length = 2 by simp; omega)
  exact ⟨frame.take (frame.length - 2), lo, hi, by rw [← hlast, List.take_append_drop]⟩

/-- R103 for a body and the two bytes after it. -/
theorem crcCheck_append_pair_iff {body : List Byte} {lo hi : Byte} :
    crcCheck (body ++ [lo, hi]) = true ↔ crc16 (body ++ [lo, hi]) = 0x0000#16 := by
  calc crcCheck (body ++ [lo, hi]) = true
      ↔ lo = lo8 (crc16 body) ∧ hi = hi8 (crc16 body) := by
        rw [crcCheck_append_pair, Bool.and_eq_true, beq_iff_eq, beq_iff_eq]
    _ ↔ crc16 body = word hi lo := eq_word_iff.symm
    _ ↔ crcFrom (crc16 body) [lo, hi] = 0x0000#16 := crcFrom_pair_eq_zero_iff.symm
    _ ↔ crc16 (body ++ [lo, hi]) = 0x0000#16 := by rw [crc16, crc16, crcFrom_append]

/-- Settles O10: the two bytes after the body bring its CRC to zero exactly where they are that CRC. -/
theorem crcResidueOfACheckedFrameIsZero : Obligations.CrcResidueOfACheckedFrameIsZero := by
  intro frame hlen
  obtain ⟨body, lo, hi, rfl⟩ := exists_eq_append_pair hlen
  exact crcCheck_append_pair_iff

/-- A checked frame has room for its CRC, and its whole CRC is zero. -/
theorem crcCheck_iff_residue {frame : List Byte} :
    crcCheck frame = true ↔ 2 ≤ frame.length ∧ crc16 frame = 0x0000#16 := by
  constructor
  · intro h
    have hlen := (crcCheck_iff_eq_appendCrc.mp h).1
    exact ⟨hlen, (crcResidueOfACheckedFrameIsZero frame hlen).mp h⟩
  · rintro ⟨hlen, h⟩
    exact (crcResidueOfACheckedFrameIsZero frame hlen).mpr h

theorem flipBit_ne {b : Byte} {j : Nat} (hj : j < 8) : b ^^^ (0x01#8 <<< j) ≠ b := by
  intro h
  simpa [hj] using congrArg (BitVec.getLsbD · j) h

/-- Settles O9: both frames would have the CRC zero, and a replaced byte changes the CRC. -/
theorem flippingOneBitFailsTheCrcCheck : Obligations.FlippingOneBitFailsTheCrcCheck := by
  intro frame k j b hcheck hk hj
  refine Bool.eq_false_iff.mpr fun hflipped => flipBit_ne (b := b) hj ?_
  obtain ⟨-, hzero⟩ := crcCheck_iff_residue.mp hcheck
  obtain ⟨-, hzero'⟩ := crcCheck_iff_residue.mp hflipped
  exact eq_of_crcFrom_set_eq hk (hzero'.trans hzero.symm)

/-- Settles O6: the last two bytes are compared with the body's CRC, and a shorter frame has none. -/
theorem crcCheckAnswersWhetherTheLastTwoBytesAreTheCrc :
    Obligations.CrcCheckAnswersWhetherTheLastTwoBytesAreTheCrc := by
  have hexec (s : State) (frame : List Byte) :
      exec (.crcCheck frame) s = .next (answer (.verdict (crcCheck frame)) s) := rfl
  refine ⟨fun s body lo hi => ?_, fun s frame hlen => ?_⟩
  · rw [hexec, crcCheck_append_pair]
    rfl
  · rw [hexec, crcCheck_of_short hlen]
    rfl

/-- Settles O8: a built frame is its body with the CRC appended. -/
theorem builtFramesPassTheCrcCheck : Obligations.BuiltFramesPassTheCrcCheck := by
  refine ⟨crcCheck_appendCrc, fun slave fc start qty extra f hf => ?_⟩
  rw [(buildFrame_some hf).2]
  exact crcCheck_appendCrc _

/-- The check value of R101, over the ASCII digits 1 to 9. -/
theorem crc16_checkValue :
    crc16 [0x31#8, 0x32#8, 0x33#8, 0x34#8, 0x35#8, 0x36#8, 0x37#8, 0x38#8, 0x39#8] = 0x4B37#16 := by
  decide +kernel

/-- Settles O5: the CRC folds byte by byte, and eight rounds are the round iterated eight times. -/
theorem crc16AnswersTheModbusCrc : Obligations.Crc16AnswersTheModbusCrc :=
  ⟨fun _ _ => rfl, rfl, fun data b => crcFrom_append _ data [b],
    fun c b => crcRounds_eq_iterate 8 (c ^^^ b.setWidth 16),
    fun _ => rfl, crc16_checkValue⟩

end Sys2Proof.Machine

/-! The engine's steps of `Sending`, each as an equation (42_transaction.md R125 to R130). -/

namespace Sys2Proof.Machine

section
variable {s : State} {b : Byte} {rest : List Byte}

theorem engineStep_of_sending (hp : s.phase = .sending) : engineStep s = sendingStep s := by
  rw [engineStep, hp]

theorem engineStep_drain (hp : s.phase = .sending) (hs : s.sendStep = .drain) : engineStep s = .next (drain s) := by
  rw [engineStep_of_sending hp, sendingStep, hs]

theorem engineStep_preHook (hp : s.phase = .sending) (hs : s.sendStep = .preHook) :
    engineStep s = .next (preHook s) := by
  rw [engineStep_of_sending hp, sendingStep, hs]

theorem engineStep_tx (hp : s.phase = .sending) (hs : s.sendStep = .tx) : engineStep s = tx s := by
  rw [engineStep_of_sending hp, sendingStep, hs]

theorem engineStep_flush (hp : s.phase = .sending) (hs : s.sendStep = .flush) : engineStep s = .next (flush s) := by
  rw [engineStep_of_sending hp, sendingStep, hs]

theorem engineStep_postHook (hp : s.phase = .sending) (hs : s.sendStep = .postHook) :
    engineStep s = .next (postHook s) := by
  rw [engineStep_of_sending hp, sendingStep, hs]

theorem engineStep_settle (hp : s.phase = .sending) (hs : s.sendStep = .settle) : engineStep s = .next (settle s) := by
  rw [engineStep_of_sending hp, sendingStep, hs]

theorem drain_of_bound (h : s.drainCount = s.cfg.drainMax) : drain s = { s with sendStep := .preHook } := if_pos h

theorem drain_of_empty (h : s.drainCount ≠ s.cfg.drainMax) (hp : s.pending = []) :
    drain s = { s with events := s.events ++ [.read none], sendStep := .preHook } := by
  rw [drain, if_neg h, readAnswer_of_empty hp, tryRead_of_empty hp]

theorem drain_of_byte (h : s.drainCount ≠ s.cfg.drainMax) (hp : s.pending = b :: rest) :
    drain s = { s with
      pending := rest
      events := s.events ++ [.read (some b)]
      drainCount := s.drainCount + 1 } := by
  rw [drain, if_neg h, readAnswer_of_nonempty hp, tryRead_of_nonempty hp]

theorem preHook_eq (s : State) :
    preHook s = { s with
      events := s.events ++ (if s.cfg.hasPreHook then [.pre] else [])
      sendStep := .tx } := by
  cases h : s.cfg.hasPreHook <;> simp [preHook, callPreHook, logEvent, h]

theorem postHook_eq (s : State) :
    postHook s = { s with
      events := s.events ++ (if s.cfg.hasPostHook then [.post] else [])
      sendStep := .settle
      timer := 0 } := by
  cases h : s.cfg.hasPostHook <;> simp [postHook, callPostHook, logEvent, h]

theorem tx_of_byte (hs : s.sendStep = .tx) (hb : s.txf[s.txIdx]? = some b) :
    tx s = .next { s with
      sent := s.sent ++ [b]
      events := s.events ++ [.write b]
      txIdx := s.txIdx + 1
      sendStep := if s.txIdx + 1 = s.txf.length then .flush else .tx } := by
  rw [tx, hb, hs]
  rfl

theorem settle_of_hold (h : s.timer < s.cfg.settleTicks) : settle s = s := if_pos h

theorem settle_of_end (h : s.cfg.settleTicks ≤ s.timer) :
    settle s = { s with phase := .awaitingHeader, timer := 0 } := if_neg (Nat.not_lt.mpr h)

end

/-- Settles O25: the three branches of the drain step. -/
theorem drainDiscardsOneByteOrGoesOn : Obligations.DrainDiscardsOneByteOrGoesOn := by
  refine ⟨fun s hp hs hbound => ?_, fun s hp hs hbound hempty => ?_, fun s b rest hp hs hbound hbyte => ?_⟩ <;>
    rw [engineStep_drain hp hs]
  · rw [drain_of_bound hbound]
  · rw [drain_of_empty hbound hempty]
  · rw [drain_of_byte hbound hbyte]

/-- Settles O26: the equations of the two hook steps, and the flush step as it is defined. -/
theorem hookAndFlushStepsCallOutAndGoOn : Obligations.HookAndFlushStepsCallOutAndGoOn := by
  refine ⟨fun s hp hs => ?_, fun s hp hs => engineStep_flush hp hs, fun s hp hs => ?_⟩
  · rw [engineStep_preHook hp hs, preHook_eq]
  · rw [engineStep_postHook hp hs, postHook_eq]

/-- Settles O28: the two branches of the settle step. -/
theorem settleHoldsThenStartsTheResponsePhase : Obligations.SettleHoldsThenStartsTheResponsePhase := by
  refine ⟨fun s hp hs hhold => ?_, fun s hp hs hend => ?_⟩ <;> rw [engineStep_settle hp hs]
  · rw [settle_of_hold hhold]
  · rw [settle_of_end hend]

end Sys2Proof.Machine

/-! The transmission: the drain, the hooks, the frame and the flush, one turn of the engine after another
(42_transaction.md R125 to R130, R140). -/

namespace Sys2Proof.Machine

section
variable {s t u : State} {b : Byte} {bytes rest : List Byte} {m n : Nat}

theorem engineTurns_add (m n : Nat) : engineTurns (m + n) = engineTurns m ++ engineTurns n :=
  List.replicate_add m n _

theorem runTurns_engine_succ (h : engineStep s = .next t) (n : Nat) :
    runTurns (engineTurns (n + 1)) s = runTurns (engineTurns n) t := by
  rw [engineTurns, List.replicate_succ, runTurns_cons, takeTurn_engine, h, andThen_next, engineTurns]

/-- Two runs of the engine make one. -/
theorem runTurns_engine_add (h : runTurns (engineTurns m) s = .next t) (h' : runTurns (engineTurns n) t = .next u) :
    runTurns (engineTurns (m + n)) s = .next u := by
  rw [engineTurns_add, runTurns_append, h, andThen_next, h']

theorem runTurns_engine_add_one (h : runTurns (engineTurns m) s = .next t) (h' : engineStep t = .next u) :
    runTurns (engineTurns (m + 1)) s = .next u :=
  runTurns_engine_add h (runTurns_engine_succ h' 0)

/-- Drain steps below the bound discard pending bytes, one a step (R125). -/
theorem runTurns_drain_bytes (hp : s.phase = .sending) (hs : s.sendStep = .drain)
    (hbound : s.drainCount + bytes.length ≤ s.cfg.drainMax) (hpending : s.pending = bytes ++ rest) :
    runTurns (engineTurns bytes.length) s = .next { s with
      pending := rest
      events := s.events ++ bytes.map fun b => Event.read (some b)
      drainCount := s.drainCount + bytes.length } := by
  induction bytes generalizing s with
  | nil =>
    rw [List.nil_append] at hpending
    simp [engineTurns, ← hpending]
  | cons b bytes ih =>
    rw [List.length_cons] at hbound
    have hstep := drain_of_byte (s := s) (by omega) hpending
    rw [List.length_cons, runTurns_engine_succ (engineStep_drain hp hs), hstep,
      ih (by exact hp) (by exact hs) (by simp only; omega) rfl]
    simp [Nat.add_assoc, Nat.add_comm 1]

/-- The whole drain: every byte pending, up to the bound, and the step that goes on (R125). -/
theorem runTurns_drain (hp : s.phase = .sending) (hs : s.sendStep = .drain) (hcount : s.drainCount = 0)
    (hd : n = min s.pending.length s.cfg.drainMax) :
    runTurns (engineTurns (n + 1)) s = .next { s with
      sendStep := .preHook
      drainCount := n
      pending := s.pending.drop n
      events := s.events ++ (s.pending.take n).map (fun b => Event.read (some b)) ++
        (if s.pending.length < s.cfg.drainMax then [.read none] else []) } := by
  have hlen : (s.pending.take n).length = n := List.length_take_of_le (by omega)
  have hbytes := runTurns_drain_bytes (bytes := s.pending.take n) (rest := s.pending.drop n) hp hs (by omega)
    (List.take_append_drop n s.pending).symm
  rw [hlen, hcount, Nat.zero_add] at hbytes
  refine runTurns_engine_add_one hbytes ?_
  rw [engineStep_drain (by exact hp) (by exact hs)]
  by_cases hshort : s.pending.length < s.cfg.drainMax
  · rw [drain_of_empty (by simp only; omega) (List.drop_eq_nil_of_le (by omega)), if_pos hshort]
  · rw [drain_of_bound (by simp only; omega), if_neg hshort, List.append_nil]

/-- Transmit steps write what is left of the frame, one byte a step, and go on to the flush at its end (R127). -/
theorem runTurns_tx (hp : s.phase = .sending) (hs : s.sendStep = .tx) (hleft : s.txf.drop s.txIdx = bytes)
    (hne : bytes ≠ []) :
    runTurns (engineTurns bytes.length) s = .next { s with
      sent := s.sent ++ bytes
      events := s.events ++ bytes.map Event.write
      txIdx := s.txf.length
      sendStep := .flush } := by
  induction bytes generalizing s with
  | nil => exact absurd rfl hne
  | cons b bytes ih =>
    have hb : s.txf[s.txIdx]? = some b := by rw [← List.head?_drop, hleft, List.head?_cons]
    have hrest : s.txf.drop (s.txIdx + 1) = bytes := by rw [← List.tail_drop, hleft, List.tail_cons]
    have hlen : s.txf.length = s.txIdx + 1 + bytes.length := by
      have := congrArg List.length hleft
      rw [List.length_drop, List.length_cons] at this
      omega
    have hstep := (engineStep_tx hp hs).trans (tx_of_byte hs hb)
    cases bytes with
    | nil =>
      rw [List.length_nil, Nat.add_zero] at hlen
      rw [if_pos hlen.symm, ← hlen] at hstep
      exact runTurns_engine_succ hstep 0
    | cons c bytes =>
      rw [if_neg (by rw [hlen, List.length_cons]; omega)] at hstep
      rw [List.length_cons, runTurns_engine_succ hstep, ih (by exact hp) rfl hrest (List.cons_ne_nil c bytes)]
      simp

end

/-- Settles O27: the step's equation, the run by induction over the bytes left, and the frame's length from the invariant. -/
theorem txWritesTheFrameInIndexOrder : Obligations.TxWritesTheFrameInIndexOrder := by
  refine ⟨fun s b hp hs hb => ?_, fun s hp hs hlt => ?_, fun s h hp => ⟨h.frameLen hp, h.frameCap⟩⟩
  · rw [engineStep_tx hp hs, tx_of_byte hs hb]
  · rw [← List.length_drop]
    exact runTurns_tx hp hs rfl (by simpa using hlt)

/-- Settles O47: the runs of the sub-states, in the protocol's order, make the whole run. -/
theorem transmissionFollowsTheProtocolOrder : Obligations.TransmissionFollowsTheProtocolOrder := by
  intro s hp hs hcount hidx hne
  simp only
  have hdrain := runTurns_drain hp hs hcount rfl
  have hpre := runTurns_engine_add_one hdrain (engineStep_preHook (by exact hp) rfl)
  rw [preHook_eq] at hpre
  have htx := runTurns_engine_add hpre (runTurns_tx (bytes := s.txf) (by exact hp) rfl (by simp [hidx]) hne)
  have hflush := runTurns_engine_add_one htx (engineStep_flush (by exact hp) rfl)
  have hpost := runTurns_engine_add_one hflush (engineStep_postHook (by exact hp) rfl)
  rw [postHook_eq] at hpost
  exact hpost

end Sys2Proof.Machine

/-! The engine where it does not send: no step at Idle and Done, and the polls (42_transaction.md R131 to R137). -/

namespace Sys2Proof.Machine

section
variable {s t : State} {b : Byte} {turns : List Turn}

theorem engineStep_of_not_busy (h : s.phase = .idle ∨ s.phase = .done) : engineStep s = .next s := by
  obtain h | h := h <;> rw [engineStep, h]

/-- At Idle and Done turns of the engine and the timer only count the ticks (R137, R138). -/
theorem runTurns_of_not_busy (h : s.phase = .idle ∨ s.phase = .done) (hturns : ∀ u ∈ turns, u = .engine ∨ u = .tick) :
    runTurns turns s = .next { s with timer := s.timer + turns.count .tick } := by
  induction turns generalizing s with
  | nil => rfl
  | cons u turns ih =>
    obtain ⟨hu, hrest⟩ := List.forall_mem_cons.mp hturns
    rw [runTurns_cons]
    obtain rfl | rfl := hu
    · rw [takeTurn_engine, engineStep_of_not_busy h, andThen_next, ih h hrest, List.count_cons_of_ne (by decide)]
    · rw [takeTurn_tick, andThen_next, ih (by exact h) hrest, List.count_cons_self]
      simp [tick, Nat.add_assoc, Nat.add_comm 1]

theorem engineStep_of_receiving (hr : receiving s = true) : engineStep s = poll s := by
  obtain h | h := receiving_iff.mp hr <;> rw [engineStep, h]

theorem engineStep_at_deadline (hr : receiving s = true) (hd : s.cfg.deadlineTicks ≤ s.timer) :
    engineStep s = .next (finish .responseTimeout s) := by
  rw [engineStep_of_receiving hr, poll, if_pos hd]

/-- A poll that finds nothing only logs its read (R131). -/
theorem engineStep_no_byte (hr : receiving s = true) (hd : s.timer < s.cfg.deadlineTicks) (hp : s.pending = []) :
    engineStep s = .next (logEvent (.read none) s) := by
  rw [engineStep_of_receiving hr, poll, if_neg (Nat.not_le.mpr hd), readAnswer_of_empty hp, tryRead_of_empty hp]
  rfl

theorem completeStage_afterRead_of_short (h : s.expected ≠ some (s.rxLen + 1)) :
    completeStage (afterRead s b) = afterRead s b :=
  if_neg fun hc => h hc.2

theorem completeStage_afterRead_of_last (hp : s.phase = .awaitingBody) (h : s.expected = some (s.rxLen + 1)) :
    completeStage (afterRead s b) = complete (afterRead s b) :=
  if_pos ⟨hp, h⟩

/-- The frames that pass the check are the bodies followed by their CRC (R102). -/
theorem crcCheck_iff_exists_body {frame : List Byte} :
    crcCheck frame = true ↔ ∃ body, frame = withWireCrc body := by
  constructor
  · intro h
    exact ⟨_, (crcCheck_iff_eq_appendCrc.mp h).2⟩
  · rintro ⟨body, rfl⟩
    exact crcCheck_appendCrc body

end

/-- Settles O34: of the engine's turns none is a tick. -/
theorem engineHasNoStepAtIdleOrDone : Obligations.EngineHasNoStepAtIdleOrDone := by
  intro s n h
  have hticks : (engineTurns n).count .tick = 0 := List.count_eq_zero.mpr (by simp [engineTurns])
  have hengine : ∀ u ∈ engineTurns n, u = .engine ∨ u = .tick := fun u hu => .inl (List.eq_of_mem_replicate hu)
  rw [runTurns_of_not_busy h hengine, hticks, Nat.add_zero]

/-- Settles O29: the poll at the deadline, on an empty queue, and at a byte short of the header or the body's end. -/
theorem pollTestsTheDeadlineFirst : Obligations.PollTestsTheDeadlineFirst := by
  refine ⟨fun s hr hd => engineStep_at_deadline hr hd, fun s hr hd hp => engineStep_no_byte hr hd hp,
    fun s b rest hd hp hshort => ?_⟩
  obtain ⟨hphase, hlen⟩ | ⟨hphase, hcap, hexp⟩ := hshort
  · exact engineStep_header hphase hlen hd hp
  · rw [engineStep_body hphase hcap hd hp, completeStage_afterRead_of_short hexp]

/-- Settles O31: the two ends of the completion, and of the second the disassembly of a write and of a read. -/
theorem completingPollChecksTheCrc : Obligations.CompletingPollChecksTheCrc := by
  intro s b rest hphase hcap hexp hd hp
  rw [engineStep_body hphase hcap hd hp, completeStage_afterRead_of_last hphase hexp, ← rxBytes_afterRead hcap]
  refine ⟨fun hbad => ?_, fun hgood => ?_⟩
  · have hcrc : crcCheck (rxBytes (afterRead s b)) = false :=
      Bool.eq_false_iff.mpr fun h => (crcCheck_iff_exists_body.mp h).elim hbad
    rw [complete_of_badCrc hcrc]
    rfl
  · rw [complete_of_crc (crcCheck_iff_exists_body.mpr hgood)]
    refine ⟨fun hwrite => ?_, fun hread => ?_⟩
    · rw [disassemble_write (s := afterRead s b) hwrite]
      rfl
    · obtain ⟨regs, hfill⟩ := disassemble_read (s := afterRead s b) hread
      rw [hfill]
      rfl

end Sys2Proof.Machine

/-! A transaction that gets no reply (42_transaction.md R131, R142). -/

namespace Sys2Proof.Machine

/-- The transaction ended at its deadline, with what was received as it was. -/
structure TimedOut (s t : State) : Prop where
  phase : t.phase = .done
  status : t.status = some .responseTimeout
  rxLen : t.rxLen = s.rxLen
  bankLen : t.bankLen = s.bankLen

section
variable {s : State} {turns : List Turn}

/-- Before the deadline, polls that find nothing and ticks leave the transaction waiting (R131, R138). -/
theorem runTurns_before_deadline (hr : receiving s = true) (hp : s.pending = [])
    (hturns : ∀ u ∈ turns, u = .engine ∨ u = .tick) (hd : s.timer + turns.count .tick < s.cfg.deadlineTicks) :
    runTurns turns s = .next { s with
      timer := s.timer + turns.count .tick
      events := s.events ++ List.replicate (turns.count .engine) (.read none) } := by
  induction turns generalizing s with
  | nil => simp
  | cons u turns ih =>
    obtain ⟨hu, hrest⟩ := List.forall_mem_cons.mp hturns
    rw [runTurns_cons]
    obtain rfl | rfl := hu
    · rw [List.count_cons_of_ne (by decide)] at hd
      rw [takeTurn_engine, engineStep_no_byte hr (by omega) hp, andThen_next,
        ih (s := logEvent (.read none) s) hr hp hrest hd, List.count_cons_self, List.count_cons_of_ne (by decide)]
      simp [logEvent, List.replicate_succ]
    · rw [List.count_cons_self] at hd
      rw [takeTurn_tick, andThen_next, ih (s := tick s) hr hp hrest (by simp only [tick]; omega),
        List.count_cons_self, List.count_cons_of_ne (by decide)]
      simp [tick, Nat.add_assoc, Nat.add_comm 1]

/-- Where the ticks reach the deadline, a poll among the turns ends the transaction, or the one after them does. -/
theorem runTurns_past_deadline (hr : receiving s = true) (hp : s.pending = [])
    (hturns : ∀ u ∈ turns, u = .engine ∨ u = .tick) (hd : s.cfg.deadlineTicks ≤ s.timer + turns.count .tick) :
    ∃ t, runTurns (turns ++ [.engine]) s = .next t ∧ TimedOut s t := by
  induction turns generalizing s with
  | nil =>
    refine ⟨finish .responseTimeout s, ?_, rfl, rfl, rfl, rfl⟩
    rw [List.nil_append, runTurns_cons, takeTurn_engine, engineStep_at_deadline hr hd, andThen_next, runTurns_nil]
  | cons u turns ih =>
    obtain ⟨hu, hrest⟩ := List.forall_mem_cons.mp hturns
    rw [List.cons_append, runTurns_cons]
    obtain rfl | rfl := hu
    · rw [List.count_cons_of_ne (by decide)] at hd
      rw [takeTurn_engine]
      by_cases hnow : s.cfg.deadlineTicks ≤ s.timer
      · have hall : ∀ u ∈ turns ++ [Turn.engine], u = .engine ∨ u = .tick :=
          List.forall_mem_append.mpr ⟨hrest, by simp⟩
        rw [engineStep_at_deadline hr hnow, andThen_next, runTurns_of_not_busy (.inr rfl) hall]
        exact ⟨_, rfl, rfl, rfl, rfl, rfl⟩
      · rw [engineStep_no_byte hr (Nat.lt_of_not_le hnow) hp, andThen_next]
        obtain ⟨t, hrun, hphase, hstatus, hrxLen, hbankLen⟩ :=
          ih (s := logEvent (.read none) s) hr hp hrest hd
        exact ⟨t, hrun, hphase, hstatus, hrxLen, hbankLen⟩
    · rw [List.count_cons_self] at hd
      rw [takeTurn_tick, andThen_next]
      obtain ⟨t, hrun, hphase, hstatus, hrxLen, hbankLen⟩ :=
        ih (s := tick s) hr hp hrest (by simp only [tick]; omega)
      exact ⟨t, hrun, hphase, hstatus, hrxLen, hbankLen⟩

end

/-- Settles O50: the two runs, by induction over the turns. -/
theorem noReplyEndsInTimeoutAtTheDeadline : Obligations.NoReplyEndsInTimeoutAtTheDeadline := by
  intro s turns hr hp hturns
  refine ⟨fun hd => ⟨_, runTurns_before_deadline hr hp hturns hd, rfl, rfl, rfl, rfl, rfl⟩, fun hd => ?_⟩
  obtain ⟨t, hrun, hphase, hstatus, hrxLen, hbankLen⟩ := runTurns_past_deadline hr hp hturns hd
  exact ⟨t, hrun, hphase, hstatus, hrxLen, hbankLen⟩

end Sys2Proof.Machine

/-! Every transaction ends: the turns left until it settles, and then the settling delay and the deadline (10_state.md R39,
42_transaction.md R141). -/

namespace Sys2Proof.Machine

/-- The engine's turns until the settling delay starts, by sub-state (R125 to R129). -/
def sendTurnsLeft (s : State) : Nat :=
  match s.sendStep with
  | .drain => s.cfg.drainMax - s.drainCount + s.txf.length + 4
  | .preHook => s.txf.length + 3
  | .tx => s.txf.length - s.txIdx + 2
  | .flush => 2
  | .postHook => 1
  | .settle => 0

/-- The engine's turns until nothing is left to send: none outside `Sending`. -/
def turnsToSettle (s : State) : Nat := if s.phase = .sending then sendTurnsLeft s else 0

/-- The response phase has started, or the transaction is over. -/
def PastSending (s : State) : Prop := receiving s = true ∨ s.phase = .done

/-- A transaction was started under this configuration, and the invariant holds. -/
structure Started (cfg : Cfg) (s : State) : Prop where
  inv : Inv s
  phase : s.phase ≠ .idle
  cfg : s.cfg = cfg

section
variable {s t : State} {cfg : Cfg}

theorem turnsToSettle_of_sending (h : s.phase = .sending) : turnsToSettle s = sendTurnsLeft s := if_pos h

theorem PastSending.turnsToSettle (h : PastSending s) : turnsToSettle s = 0 := by
  refine if_neg fun hp => ?_
  simp [PastSending, receiving, hp] at h

theorem PastSending.not_idle (h : PastSending s) : s.phase ≠ .idle := by
  intro hp
  simp [PastSending, receiving, hp] at h

/-- The longest way: the whole drain, the longest frame, and the four steps around them. -/
theorem Inv.turnsToSettle_le (h : Inv s) : turnsToSettle s ≤ s.cfg.drainMax + 260 := by
  have hcap : s.txf.length ≤ 256 := h.frameCap
  unfold turnsToSettle sendTurnsLeft
  split
  · split <;> omega
  · omega

/-- Only at the settle step is nothing left to send. -/
theorem sendStep_of_turnsToSettle_eq_zero (hp : s.phase = .sending) (h : turnsToSettle s = 0) :
    s.sendStep = .settle := by
  rw [turnsToSettle_of_sending hp, sendTurnsLeft] at h
  split at h
  case h_6 hs => exact hs
  all_goals omega

/-! From the invariant the engine's step leads on (R205). -/

theorem responseLength_of_listed {fc : Byte} (h : listedCode fc = true) (byteCount : Byte) :
    ∃ n, responseLength fc byteCount = some n := by
  unfold listedCode at h
  unfold responseLength
  split
  case h_6 hnone => simp [hnone] at h
  all_goals exact ⟨_, rfl⟩

/-- A header check for a listed code has a length to set, so it ends the transaction or goes on to the body (R78, R133). -/
theorem headerCheck_of_listed (h : listedCode s.reqFc = true) : ∃ t, headerCheck s = .next t ∧ PastSending t := by
  by_cases hslave : rxByte s 0 = s.reqSlave
  case neg => exact ⟨_, headerCheck_of_slave hslave, .inr rfl⟩
  by_cases hfc : maskedFunction (rxByte s 1) = s.reqFc
  case neg => exact ⟨_, headerCheck_of_function hslave hfc, .inr rfl⟩
  cases hbit : exceptionBit (rxByte s 1) with
  | true => exact ⟨_, headerCheck_of_exception hslave hfc hbit, .inr rfl⟩
  | false =>
    obtain ⟨n, hn⟩ := responseLength_of_listed h (rxByte s 2)
    exact ⟨_, headerCheck_of_length hslave hfc hbit hn, .inl rfl⟩

theorem headerStage_of_listed (hr : receiving s = true) (h : listedCode s.reqFc = true) :
    ∃ t, headerStage s = .next t ∧ PastSending t := by
  unfold headerStage
  split
  · exact headerCheck_of_listed h
  · exact ⟨s, rfl, .inl hr⟩

theorem completeStage_pastSending (h : PastSending s) : PastSending (completeStage s) := by
  obtain ⟨-, -, he⟩ | ⟨-, he⟩ := completeStage_cases s <;> rw [he]
  · obtain ⟨-, he⟩ | ⟨-, he⟩ := complete_cases s <;> rw [he] <;> exact .inr rfl
  · exact h

/-- The accumulator of a receiving phase has room for a byte (R132). -/
theorem Inv.rxLen_lt (h : Inv s) (hr : receiving s = true) : s.rxLen < rxCap := by
  obtain hp | hp := receiving_iff.mp hr
  · exact Nat.lt_of_lt_of_le (h.headerLen hp) (by decide)
  · obtain ⟨n, hn, hlt⟩ := h.bodyLen hp
    exact Nat.lt_of_lt_of_le hlt (h.expectedRange n hn).2.1

/-- A poll goes on receiving or ends the transaction (R131). -/
theorem Inv.poll_next (h : Inv s) (hr : receiving s = true) : ∃ t, engineStep s = .next t ∧ PastSending t := by
  by_cases hd : s.timer < s.cfg.deadlineTicks
  case neg => exact ⟨_, engineStep_at_deadline hr (Nat.le_of_not_lt hd), .inr rfl⟩
  cases hp : s.pending with
  | nil => exact ⟨_, engineStep_no_byte hr hd hp, .inl hr⟩
  | cons b rest =>
    have hlisted : listedCode s.reqFc = true := (h.requestLegal (busy_iff.mpr (.inr (receiving_iff.mp hr)))).1
    obtain ⟨m, hm, hpast⟩ := headerStage_of_listed (s := afterRead s b) hr hlisted
    exact ⟨completeStage m, by rw [engineStep_read hr hd hp (h.rxLen_lt hr), hm, andThen_next],
      completeStage_pastSending hpast⟩

/-- A step of `Sending` brings the settle step one turn nearer (R125 to R130). -/
theorem Inv.sendingStep_next (h : Inv s) (hp : s.phase = .sending) :
    ∃ t, engineStep s = .next t ∧ turnsToSettle t ≤ turnsToSettle s - 1 := by
  rw [turnsToSettle_of_sending hp]
  cases hs : s.sendStep with
  | drain =>
    refine ⟨_, engineStep_drain hp hs, ?_⟩
    have hbound := h.drainBound
    obtain ⟨-, he⟩ | ⟨-, -, he⟩ | ⟨hne, -, he⟩ := drain_cases s <;> rw [he]
    all_goals simp only [turnsToSettle, sendTurnsLeft, tryRead_phase, tryRead_sendStep, tryRead_cfg, tryRead_txf, hp,
      hs, if_true]
    · omega
    · omega
    · omega
  | preHook =>
    refine ⟨_, engineStep_preHook hp hs, ?_⟩
    rw [preHook_eq]
    simp only [turnsToSettle, sendTurnsLeft, hp, hs, if_true]
    omega
  | tx =>
    have hlt := h.txInFrame hp hs
    refine ⟨_, (engineStep_tx hp hs).trans (tx_of_byte hs (List.getElem?_eq_getElem hlt)), ?_⟩
    simp only [turnsToSettle, sendTurnsLeft, hp, hs, if_true]
    split_ifs <;> simp only <;> omega
  | flush =>
    refine ⟨_, engineStep_flush hp hs, ?_⟩
    simp [turnsToSettle, sendTurnsLeft, flush, hp, hs]
  | postHook =>
    refine ⟨_, engineStep_postHook hp hs, ?_⟩
    simp [turnsToSettle, sendTurnsLeft, postHook_eq, hp, hs]
  | settle =>
    refine ⟨_, engineStep_settle hp hs, ?_⟩
    obtain ⟨-, he⟩ | ⟨-, he⟩ := settle_cases s <;> rw [he] <;> simp [turnsToSettle, sendTurnsLeft, hp, hs]

/-! The run. -/

theorem Started.of_engineStep (h : Started cfg s) (he : engineStep s = .next t) (ht : t.phase ≠ .idle) : Started cfg t :=
  ⟨engineStep_inv h.inv he, ht, (engineStep_engineKeeps he).cfg.trans h.cfg⟩

/-- The state after ticks (R138). -/
theorem Started.setTimer (h : Started cfg s) (n : Nat) : Started cfg { s with timer := n } :=
  ⟨{ h.inv with }, h.phase, h.cfg⟩

theorem Started.step_next (h : Started cfg s) :
    ∃ t, engineStep s = .next t ∧ Started cfg t ∧ turnsToSettle t ≤ turnsToSettle s - 1 := by
  obtain ⟨hp, he⟩ | ⟨hp, -⟩ | ⟨hr, -⟩ := engineStep_cases s
  · have hdone : s.phase = .done := hp.resolve_left h.phase
    have hzero : turnsToSettle s = 0 := PastSending.turnsToSettle (.inr hdone)
    exact ⟨s, he, h, by omega⟩
  · obtain ⟨t, he, hless⟩ := h.inv.sendingStep_next hp
    have hphase := (sendingStep_sendingKeeps (engineStep_of_sending hp ▸ he)).phase
    exact ⟨t, he, h.of_engineStep he (by rw [hp] at hphase; obtain ht | ht := hphase <;> simp [ht]), hless⟩
  · obtain ⟨t, he, hpast⟩ := h.inv.poll_next hr
    exact ⟨t, he, h.of_engineStep he hpast.not_idle, by simp [hpast.turnsToSettle]⟩

/-- Turns of the engine use up what is left to send. -/
theorem Started.runTurns_engine (n : Nat) (h : Started cfg s) :
    ∃ t, runTurns (engineTurns n) s = .next t ∧ Started cfg t ∧ turnsToSettle t ≤ turnsToSettle s - n := by
  induction n generalizing s with
  | zero => exact ⟨s, rfl, h, Nat.le_refl _⟩
  | succ n ih =>
    obtain ⟨t, he, ht, hless⟩ := h.step_next
    obtain ⟨u, hrun, hu, hless'⟩ := ih ht
    exact ⟨u, (runTurns_engine_succ he n).trans hrun, hu, by omega⟩

theorem runTurns_tickTurns (n : Nat) (s : State) :
    runTurns (tickTurns n) s = .next { s with timer := s.timer + n } := by
  induction n generalizing s with
  | zero => rfl
  | succ n ih =>
    rw [tickTurns, List.replicate_succ, runTurns_cons, takeTurn_tick, andThen_next, ← tickTurns, ih]
    simp [tick, Nat.add_assoc, Nat.add_comm 1]

/-- With nothing left to send and the settling delay over, the engine's turn leaves `Sending` behind (R130). -/
theorem Started.leaves_sending (h : Started cfg s) (hleft : turnsToSettle s = 0) (hd : s.cfg.settleTicks ≤ s.timer) :
    ∃ t, engineStep s = .next t ∧ Started cfg t ∧ PastSending t := by
  have hsome : ∃ t, engineStep s = .next t ∧ PastSending t := by
    obtain ⟨hp, he⟩ | ⟨hp, -⟩ | ⟨hr, -⟩ := engineStep_cases s
    · exact ⟨s, he, .inr (hp.resolve_left h.phase)⟩
    · refine ⟨_, engineStep_settle hp (sendStep_of_turnsToSettle_eq_zero hp hleft), ?_⟩
      rw [settle_of_end hd]
      exact .inl rfl
    · exact h.inv.poll_next hr
  obtain ⟨t, he, hpast⟩ := hsome
  exact ⟨t, he, h.of_engineStep he hpast.not_idle, hpast⟩

/-- Past `Sending`, the engine's turn at the deadline ends the transaction, or it is over already (R131, R137). -/
theorem PastSending.ends_at_deadline (h : PastSending s) (hd : s.cfg.deadlineTicks ≤ s.timer) :
    ∃ t, engineStep s = .next t ∧ t.phase = .done := by
  obtain hr | hdone := h
  · exact ⟨_, engineStep_at_deadline hr hd, rfl⟩
  · exact ⟨s, engineStep_of_not_busy (.inr hdone), hdone⟩

end

/-- Settles O51: the turns left to send run out, then the settling delay, then the deadline. -/
theorem everyTransactionEndsWithinItsBound : Obligations.EveryTransactionEndsWithinItsBound := by
  intro s hinv hbusy
  have hstart : Started s.cfg s := ⟨hinv, fun hp => by simp [busy, hp] at hbusy, rfl⟩
  obtain ⟨t, hsend, ht, hleft⟩ := hstart.runTurns_engine (s.cfg.drainMax + 260)
  rw [Nat.sub_eq_zero_of_le hinv.turnsToSettle_le, Nat.le_zero] at hleft
  have hsettle := runTurns_tickTurns s.cfg.settleTicks t
  obtain ⟨u, hleave, hu, hpast⟩ := (ht.setTimer (t.timer + s.cfg.settleTicks)).leaves_sending hleft
    (by simp only [ht.cfg]; omega)
  have hwait := runTurns_tickTurns s.cfg.deadlineTicks u
  have hu' := hu.setTimer (u.timer + s.cfg.deadlineTicks)
  have hpast' : PastSending { u with timer := u.timer + s.cfg.deadlineTicks } := hpast
  obtain ⟨v, hend, hdone⟩ := hpast'.ends_at_deadline (by simp only [hu.cfg]; omega)
  refine ⟨v, ?_, hdone, (engineStep_inv hu'.inv hend).statusIff.mpr hdone⟩
  simp only [runTurns_append, hsend, hsettle, hwait, hleave, hend, runTurns_cons, runTurns_nil, takeTurn_engine,
    andThen_next]

end Sys2Proof.Machine

/-! EXEC and the ten requests, and RESULT (42_transaction.md R120 to R123, R144, 43_function_codes.md R150 to R159). -/

namespace Sys2Proof.Machine

section
variable {s : State} {i : Instr} {slave fc : Byte} {start qty : Reg} {extra : List Byte}

/-- Whatever asks for a transaction runs as EXEC_START (R120, R150 to R159; log 3). -/
theorem exec_of_asksFor (h : AsksFor i slave fc start qty extra) (s : State) :
    exec i s = startTransaction slave fc start qty extra s := by
  obtain rfl | ⟨rfl, rfl⟩ | ⟨rfl, rfl⟩ | ⟨rfl, rfl⟩ | ⟨rfl, rfl⟩ | ⟨rfl, rfl⟩ | ⟨rfl, rfl⟩ | ⟨rfl, rfl⟩ | ⟨rfl, rfl⟩ |
    ⟨rfl, rfl⟩ | ⟨rfl, rfl⟩ := h <;> rfl

theorem listedCode_iff : listedCode fc = true ↔ InFcSet fc := by
  unfold InFcSet
  revert fc
  decide

theorem legalSlave_iff : legalSlave slave = true ↔ InSlaveRange slave := decide_eq_true_iff

theorem startTransaction_of_busy (h : busy s = true) :
    startTransaction slave fc start qty extra s = .next (refuse .busy s) := if_pos h

theorem startTransaction_of_unlisted (hb : busy s = false) (h : ¬ InFcSet fc) :
    startTransaction slave fc start qty extra s = .next (refuse .functionCode s) := by
  have hfc : listedCode fc = false := Bool.eq_false_iff.mpr (mt listedCode_iff.mp h)
  simp [startTransaction, hb, hfc]

theorem startTransaction_of_illegalSlave (hb : busy s = false) (hfc : InFcSet fc) (h : ¬ InSlaveRange slave) :
    startTransaction slave fc start qty extra s = .next (refuse .slaveAddress s) := by
  have hslave : legalSlave slave = false := Bool.eq_false_iff.mpr (mt legalSlave_iff.mp h)
  simp [startTransaction, hb, listedCode_iff.mpr hfc, hslave]

/-- A request that is not refused is latched and launched (R122, R123). -/
theorem startTransaction_of_legal (hb : busy s = false) (hfc : InFcSet fc) (hslave : InSlaveRange slave) :
    startTransaction slave fc start qty extra s =
      .next (answer .started (launch (buildFrame slave fc start qty extra) (latchRequest slave fc s))) := by
  simp [startTransaction, hb, listedCode_iff.mpr hfc, legalSlave_iff.mpr hslave]

theorem execResult_of_done {st : Status} (hp : s.phase = .done) (hst : s.status = some st) :
    execResult s = .next (answer (.result st (statusCode st) s.bankLen) s) := by
  simp [execResult, busy, hp, hst]

end

/-- Settles O11: the request is latched and its frame, which fits, is launched. -/
theorem requestStartsATransaction : Obligations.RequestStartsATransaction := by
  intro s i slave fc start qty extra hi hp hfc hslave hlen
  rw [exec_of_asksFor hi, startTransaction_of_legal (not_busy_iff.mpr hp) hfc hslave, buildFrame_of_fits hlen]
  rfl

/-- Settles O12: the request is latched, and with no frame to launch the transaction is over. -/
theorem oversizedRequestEndsInBuildOverflow : Obligations.OversizedRequestEndsInBuildOverflow := by
  intro s i slave fc start qty extra hi hp hfc hslave hlen
  rw [exec_of_asksFor hi, startTransaction_of_legal (not_busy_iff.mpr hp) hfc hslave, buildFrame_none_iff.mpr hlen]
  rfl

/-- Settles O13: the three refusals of EXEC_START, in the order it tests for them. -/
theorem refusedRequestChangesNothing : Obligations.RefusedRequestChangesNothing := by
  refine ⟨fun s i slave fc start qty extra hi hp => ?_, fun s slave fc start qty extra hp hfc => ?_,
    fun s i slave fc start qty extra hi hp hfc hslave => ?_⟩
  · rw [exec_of_asksFor hi, startTransaction_of_busy (busy_iff.mpr hp)]
    rfl
  · rw [exec_of_asksFor (.inl rfl), startTransaction_of_unlisted (not_busy_iff.mpr hp) hfc]
    rfl
  · rw [exec_of_asksFor hi, startTransaction_of_illegalSlave (not_busy_iff.mpr hp) hfc hslave]
    rfl

/-- Settles O16: RESULT at Done answers, and R83's table is `statusCode`'s. -/
theorem resultReportsStatusCodeAndBankLength : Obligations.ResultReportsStatusCodeAndBankLength :=
  ⟨fun _ _ hp hst => execResult_of_done hp hst, rfl, fun _ => rfl, rfl, rfl, rfl, rfl, rfl⟩

end Sys2Proof.Machine

/-! BANK_READ and the disassembly of a read's payload (44_register_bank.md R170 to R173, R175). -/

namespace Sys2Proof.Machine

section
variable {s : State}

/-! The bank read. -/

/-- Like `readBank_in_range`, with the bound on the range itself in place of one on `bank_len`. -/
theorem readBank_of_fits {start n : Nat} {f : List Reg → Reply} (h : start + n ≤ s.bankLen)
    (hc : start + n ≤ bankCap) : readBank start n f s = .next (answer (f (bankRegs s start n)) s) := by
  rw [readBank, if_neg (Nat.not_lt.mpr h), if_neg (Nat.not_lt.mpr hc)]

theorem readBank_past_end {start n : Nat} {f : List Reg → Reply} (h : s.bankLen < start + n) :
    readBank start n f s = .next (answer (.error .decodeOutOfRange) s) := if_pos h

theorem exec_bankRead_of_not_busy (i : Nat) (h : busy s = false) :
    exec (.bankRead i) s = readBank i 1 registerReply s := if_neg (by simp [h])

theorem bankReg_eq_getElem {i : Nat} (h : i < bankCap) : bankReg s i = s.bank[i] := by
  rw [bankReg, Vector.getElem?_eq_getElem h, Option.getD_some]

theorem registerReply_bankRegs (i : Nat) : registerReply (bankRegs s i 1) = .register (bankReg s i) := rfl

/-! The payload and the filled bank. -/

theorem payload_length : (payload s).length = (rxByte s 2).toNat := by
  have hlt := (rxByte s 2).isLt
  simp only [payload, List.length_take, List.length_drop, Vector.length_toList, rxCap]
  omega

/-- Byte `k` of the payload is `Rx[3+k]` (R170). -/
theorem payload_getElem? {k : Nat} (h : k < (rxByte s 2).toNat) : (payload s)[k]? = some (rxByte s (3 + k)) := by
  have hlt := (rxByte s 2).isLt
  have hk : 3 + k < rxCap := by rw [rxCap]; omega
  rw [payload, List.getElem?_take_of_lt h, List.getElem?_drop, Vector.getElem?_toList, rxByte,
    Vector.getElem?_eq_getElem hk, Option.getD_some]

/-- A register at or past the filled length keeps its stale value (R170). -/
theorem bankReg_fillBank_stale {regs : List Reg} {i : Nat} (h : regs.length ≤ i) :
    bankReg (fillBank regs s) i = bankReg s i := by
  obtain hi | hi := Nat.lt_or_ge i bankCap
  · rw [bankReg_fillBank hi, dif_neg (Nat.not_lt.mpr h)]
  · rw [bankReg, bankReg, Vector.getElem?_eq_none hi, Vector.getElem?_eq_none hi]

/-- Filling the bank changes only `bank_len` and the registers below it (R170). -/
theorem fillBank_frame {regs : List Reg} {t : State} {n : Nat} (ht : t = fillBank regs s) (hn : regs.length = n) :
    t = { s with bank := t.bank, bankLen := n } ∧ ∀ i, n ≤ i → bankReg t i = bankReg s i := by
  subst ht hn
  exact ⟨rfl, fun _ => bankReg_fillBank_stale⟩

end

/-- Settles O32: the bank is filled with the payload's registers, and payload byte `k` is `Rx[3+k]`. -/
theorem bitReadFillsTheBankLowByteFirst : Obligations.BitReadFillsTheBankLowByteFirst := by
  refine ⟨fun s hfc => ?_, rfl⟩
  have hlen : (payload s).length = (rxByte s 2).toNat := payload_length
  obtain ⟨-, hpair, hlast⟩ := disassemble_bitRead_bank hfc rfl (payload_length_le s)
  obtain ⟨hframe, hstale⟩ := fillBank_frame (disassemble_bitRead hfc) (by rw [disasmBits_length, hlen])
  refine ⟨hframe, fun i hi => ?_, fun i hi => ?_, hstale⟩
  · exact hpair i _ _ (payload_getElem? (by omega)) (payload_getElem? hi)
  · exact hlast i _ (by rw [hlen, hi]) (payload_getElem? (by omega))

/-- Settles O33: as for O32 in the other byte order, and a write's disassembly is the identity. -/
theorem wordReadFillsTheBankHighByteFirst : Obligations.WordReadFillsTheBankHighByteFirst := by
  refine ⟨fun s hfc => ?_, fun s => disassemble_write⟩
  obtain ⟨-, hpair⟩ := disassemble_wordRead_bank hfc rfl (payload_length_le s)
  obtain ⟨hframe, hstale⟩ := fillBank_frame (disassemble_wordRead hfc) (by rw [disasmWords_length, payload_length])
  refine ⟨hframe, fun i hi => ?_, hstale⟩
  exact hpair i _ _ (payload_getElem? (by omega)) (payload_getElem? hi)

/-- Settles O17: a read of one register, inside `bank_len` and the capacity or past `bank_len`. -/
theorem bankReadAnswersTheRegisterOrOutOfRange : Obligations.BankReadAnswersTheRegisterOrOutOfRange := by
  refine ⟨fun s i hcap hp hi => ?_, fun s i hp hi => ?_⟩
  · rw [exec_bankRead_of_not_busy i (not_busy_iff.mpr hp), readBank_of_fits hi hcap, registerReply_bankRegs,
      bankReg_eq_getElem hcap]
    rfl
  · rw [exec_bankRead_of_not_busy i (not_busy_iff.mpr hp), readBank_past_end (Nat.lt_succ_of_le hi)]
    rfl

end Sys2Proof.Machine

/-! DECODE of a legal type, and the four folds (45_numeric_decode.md R180 to R199). -/

namespace Sys2Proof.Machine

section
variable {s t : State} {i : Instr} {ty : NumType} {start : Nat} {order : Order}

/-! What DECODE and the eight rows do. -/

theorem specEnc_eq_encByte (ty : NumType) (order : Order) : specEnc ty order = encByte (typeCode ty) order := by
  cases ty <;> cases order <;> rfl

theorem execDecode_of_descriptor {enc : Byte} {d : Descriptor} (hb : busy s = false) (h : descriptorOf enc = some d) :
    execDecode start enc s = decodeBank start d s := by
  simp [execDecode, hb, h]

theorem decodeTyped_of_not_busy (ty : NumType) (start : Nat) (order : Order) (h : busy s = false) :
    decodeTyped ty start order s = decodeBank start ⟨ty, order⟩ s := if_neg (by simp [h])

/-- DECODE with a legal descriptor and that descriptor's row are one reading of the bank (R180, R191 to R198). -/
theorem exec_decodesAs_of_not_busy (hi : DecodesAs i ty start order) (hb : busy s = false) :
    exec i s = decodeBank start ⟨ty, order⟩ s := by
  obtain rfl | ⟨rfl, rfl⟩ | ⟨rfl, rfl⟩ | ⟨rfl, rfl⟩ | ⟨rfl, rfl⟩ | ⟨rfl, rfl⟩ | ⟨rfl, rfl⟩ | ⟨rfl, rfl⟩ | ⟨rfl, rfl⟩ := hi
  · exact execDecode_of_descriptor hb (by rw [specEnc_eq_encByte, descriptorOf_encByte])
  all_goals exact decodeTyped_of_not_busy _ start order hb

/-- Registers below `bank_len` are fetched and interpreted (R181). -/
theorem exec_decodesAs_in_range (hi : DecodesAs i ty start order) (hp : s.phase = .idle ∨ s.phase = .done)
    (hcap : s.bankLen ≤ bankCap) (h : start + typeRegs ty ≤ s.bankLen) :
    exec i s =
      .next { s with reply := .number (interpret ⟨ty, order⟩ (bankRegs s start (typeRegs ty))) } := by
  rw [exec_decodesAs_of_not_busy hi (not_busy_iff.mpr hp), decodeBank, readBank_in_range h hcap]
  rfl

/-- Registers that are not all below `bank_len` raise DecodeOutOfRange (R181). -/
theorem exec_decodesAs_past_end (hi : DecodesAs i ty start order) (hp : s.phase = .idle ∨ s.phase = .done)
    (h : s.bankLen < start + typeRegs ty) :
    exec i s = .next { s with reply := .error .decodeOutOfRange } := by
  rw [exec_decodesAs_of_not_busy hi (not_busy_iff.mpr hp), decodeBank, readBank_past_end h]
  rfl

theorem bankRegs_congr {n : Nat} (h : ∀ k, k < n → bankReg s (start + k) = bankReg t (start + k)) :
    bankRegs s start n = bankRegs t start n :=
  List.map_congr_left fun k hk => h k (List.mem_range.mp hk)

/-! The folds. -/

/-- Shifting a register in below a pattern appends it (R8), whatever of the two the width `w` holds. -/
theorem shiftIn_eq_append {n w : Nat} (v : BitVec n) (r : Reg) :
    (v.setWidth w <<< 16) ||| r.setWidth w = (v ++ r).setWidth w := by
  ext k hk
  simp only [BitVec.getElem_or, BitVec.getElem_shiftLeft, BitVec.getElem_setWidth, BitVec.getLsbD_append]
  by_cases hlow : k < 16
  · simp [hlow]
  · simp [hlow, BitVec.getLsbD_of_ge r k (Nat.le_of_not_lt hlow)]

theorem joinRegs_one (r0 : Reg) : joinRegs 16 [r0] = r0 := by
  simp [joinRegs]

theorem joinRegs_two (r0 r1 : Reg) : joinRegs 32 [r0, r1] = r0 ++ r1 := by
  simp [joinRegs, shiftIn_eq_append]

theorem joinRegs_four (r0 r1 r2 r3 : Reg) : joinRegs 64 [r0, r1, r2, r3] = r0 ++ r1 ++ r2 ++ r3 := by
  simp [joinRegs, shiftIn_eq_append]

theorem foldRegs_one (order : Order) (r0 : Reg) : foldRegs 16 order [r0] = fold1 order r0 := by
  cases order <;> exact joinRegs_one _

theorem foldRegs_two (order : Order) (r0 r1 : Reg) : foldRegs 32 order [r0, r1] = fold2 order r0 r1 := by
  cases order <;> exact joinRegs_two _ _

theorem foldRegs_four (order : Order) (r0 r1 r2 r3 : Reg) :
    foldRegs 64 order [r0, r1, r2, r3] = fold4 order r0 r1 r2 r3 := by
  cases order <;> exact joinRegs_four _ _ _ _

/-- `as_signed` is two's complement (R9, D18). -/
theorem toInt_eq_asSigned {n : Nat} (v : BitVec n) : v.toInt = asSigned v := by
  rw [BitVec.toInt_eq_msb_cond, BitVec.msb_eq_getLsbD_last, asSigned, Nat.cast_pow, Nat.cast_ofNat]

end

/-- Settles O21: the joins as concatenations, and the spec's example of two registers. -/
theorem foldsJoinTheRegistersInTheFourOrders : Obligations.FoldsJoinTheRegistersInTheFourOrders :=
  ⟨foldRegs_one, foldRegs_two, foldRegs_four, fun _ => ⟨rfl, rfl⟩, rfl, rfl, rfl, rfl⟩

/-- Settles O18: the registers in range are folded, and a fold is below 2 to its width. -/
theorem unsignedDecodesAnswerTheFoldedPattern : Obligations.UnsignedDecodesAnswerTheFoldedPattern := by
  refine ⟨fun s i start order hi hp hcap h => ⟨?_, BitVec.isLt _⟩, fun s i start order hi hp hcap h => ⟨?_, BitVec.isLt _⟩,
    fun s i start order hi hp hcap h => ⟨?_, BitVec.isLt _⟩, fun s i ty n start order hty hi hp h => ?_⟩
  · rw [← foldRegs_one]
    exact exec_decodesAs_in_range hi hp hcap h
  · rw [← foldRegs_two]
    exact exec_decodesAs_in_range hi hp hcap h
  · rw [← foldRegs_four]
    exact exec_decodesAs_in_range hi hp hcap h
  · obtain ⟨rfl, rfl⟩ | ⟨rfl, rfl⟩ | ⟨rfl, rfl⟩ := hty <;> exact exec_decodesAs_past_end hi hp h

/-- Settles O19: as for O18, with the fold read in two's complement. -/
theorem signedDecodesAnswerTheTwosComplementValue : Obligations.SignedDecodesAnswerTheTwosComplementValue := by
  refine ⟨fun s i start order hi hp hcap h => ?_, fun s i start order hi hp hcap h => ?_,
    fun s i start order hi hp hcap h => ?_, fun s i ty n start order hty hi hp h => ?_⟩
  · rw [← foldRegs_one, ← toInt_eq_asSigned]
    exact exec_decodesAs_in_range hi hp hcap h
  · rw [← foldRegs_two, ← toInt_eq_asSigned]
    exact exec_decodesAs_in_range hi hp hcap h
  · rw [← foldRegs_four, ← toInt_eq_asSigned]
    exact exec_decodesAs_in_range hi hp hcap h
  · obtain ⟨rfl, rfl⟩ | ⟨rfl, rfl⟩ | ⟨rfl, rfl⟩ := hty <;> exact exec_decodesAs_past_end hi hp h

/-- Settles O20: as for O18, with the fold read as a datum, which keeps every bit. -/
theorem floatDecodesAnswerTheDatumOfTheFoldedPattern : Obligations.FloatDecodesAnswerTheDatumOfTheFoldedPattern := by
  refine ⟨fun s i start order hi hp hcap h => ⟨?_, f32Bits_f32OfBits _⟩,
    fun s i start order hi hp hcap h => ⟨?_, f64Bits_f64OfBits _⟩, fun s i ty n start order hty hi hp h => ?_⟩
  · rw [← foldRegs_two]
    exact exec_decodesAs_in_range hi hp hcap h
  · rw [← foldRegs_four]
    exact exec_decodesAs_in_range hi hp hcap h
  · obtain ⟨rfl, rfl⟩ | ⟨rfl, rfl⟩ := hty <;> exact exec_decodesAs_past_end hi hp h

/-- Settles O23: in range both states interpret the same registers, and out of range both answer the error. -/
theorem decodeDependsOnlyOnItsRegisters : Obligations.DecodeDependsOnlyOnItsRegisters := by
  intro s t i ty start order hi hps hpt hlen hcap hregs
  obtain h | h := Nat.lt_or_ge s.bankLen (start + typeRegs ty)
  · exact ⟨_, exec_decodesAs_past_end hi hps h, exec_decodesAs_past_end hi hpt (hlen ▸ h)⟩
  · refine ⟨_, exec_decodesAs_in_range hi hps hcap h, ?_⟩
    rw [bankRegs_congr hregs]
    exact exec_decodesAs_in_range hi hpt (hlen ▸ hcap) (hlen ▸ h)

end Sys2Proof.Machine

/-! Progress: from the invariant every turn leads on, but for bytes that are no command (60_exceptions.md R205, logs 16
and 17). -/

namespace Sys2Proof.Machine

section
variable {s : State}

/-- A range below a `bank_len` within the capacity does not pass the capacity (R31, R51). -/
theorem readBank_next {start n : Nat} {f : List Reg → Reply} (h : s.bankLen ≤ bankCap) :
    ∃ t, readBank start n f s = .next t := by
  obtain hpast | hfits := Nat.lt_or_ge s.bankLen (start + n)
  · exact ⟨_, readBank_past_end hpast⟩
  · exact ⟨_, readBank_in_range hfits h⟩

theorem execBankRead_next {i : Nat} (h : s.bankLen ≤ bankCap) : ∃ t, execBankRead i s = .next t := by
  unfold execBankRead
  split
  · exact ⟨_, rfl⟩
  · exact readBank_next h

theorem decodeTyped_next {ty : NumType} {start : Nat} {order : Order} (h : s.bankLen ≤ bankCap) :
    ∃ t, decodeTyped ty start order s = .next t := by
  unfold decodeTyped
  split
  · exact ⟨_, rfl⟩
  · exact readBank_next h

theorem execDecode_next {start : Nat} {enc : Byte} (h : s.bankLen ≤ bankCap) :
    ∃ t, execDecode start enc s = .next t := by
  unfold execDecode
  split
  · exact ⟨_, rfl⟩
  · split
    · exact ⟨_, rfl⟩
    · exact readBank_next h

theorem execBuild_next (slave fc : Byte) (start qty : Reg) (extra : List Byte) (s : State) :
    ∃ t, execBuild slave fc start qty extra s = .next t := by
  cases hf : buildFrame slave fc start qty extra with
  | none => exact ⟨_, execBuild_of_none hf s⟩
  | some f => exact ⟨_, execBuild_of_some hf s⟩

/-- EXEC_START refuses or starts (R121 to R123). -/
theorem startTransaction_next (slave fc : Byte) (start qty : Reg) (extra : List Byte) (s : State) :
    ∃ t, startTransaction slave fc start qty extra s = .next t := by
  cases hb : busy s with
  | true => exact ⟨_, startTransaction_of_busy hb⟩
  | false =>
    by_cases hfc : InFcSet fc
    case neg => exact ⟨_, startTransaction_of_unlisted hb hfc⟩
    by_cases hslave : InSlaveRange slave
    case neg => exact ⟨_, startTransaction_of_illegalSlave hb hfc hslave⟩
    exact ⟨_, startTransaction_of_legal hb hfc hslave⟩

/-- At Done there is a status to report (R29, R144). -/
theorem Inv.execResult_next (h : Inv s) : ∃ t, execResult s = .next t := by
  cases hb : busy s with
  | true => exact ⟨_, execResult_of_busy hb⟩
  | false =>
    obtain hidle | hdone := not_busy_iff.mp hb
    · exact ⟨_, execResult_of_idle hidle⟩
    · obtain ⟨st, hst⟩ := Option.ne_none_iff_exists'.mp (h.statusIff.mpr hdone)
      exact ⟨_, execResult_of_done hdone hst⟩

/-- No instruction stops: each answers, refuses by setting the mark, starts, or brings in a byte. -/
theorem Inv.exec_next (h : Inv s) (i : Instr) : ∃ t, exec i s = .next t := by
  cases i with
  | crc16 | crcCheck | reservedOp7 | decodeF16Reserved | exceptionResponse => exact ⟨_, rfl⟩
  | build slave fc start qty extra => exact execBuild_next slave fc start qty extra s
  | result => exact h.execResult_next
  | bankRead => exact execBankRead_next h.bankLenCap
  | decode => exact execDecode_next h.bankLenCap
  | decodeU16 | decodeS16 | decodeU32 | decodeS32 | decodeF32 | decodeU64 | decodeS64 | decodeF64 =>
    exact decodeTyped_next h.bankLenCap
  | exec | readCoils | readDiscreteInputs | readHoldingRegisters | readInputRegisters | writeSingleCoil
  | writeSingleRegister | writeMultipleCoils | writeMultipleRegisters | maskWriteRegister
  | readWriteMultipleRegisters => exact startTransaction_next _ _ _ _ _ s

theorem Inv.engineStep_next (h : Inv s) : ∃ t, engineStep s = .next t := by
  obtain ⟨-, he⟩ | ⟨hp, -⟩ | ⟨hr, -⟩ := engineStep_cases s
  · exact ⟨s, he⟩
  · exact (h.sendingStep_next hp).imp fun _ ht => ht.1
  · exact (h.poll_next hr).imp fun _ ht => ht.1

/-- Of all turns only a command can stop, and only for bytes that are no instruction (log 17). -/
theorem Inv.takeTurn_next_or_undecodable (h : Inv s) (u : Turn) :
    (∃ t, takeTurn u s = .next t) ∨
    ∃ c why, u = .command c ∧ decode c = .error why ∧ takeTurn u s = .refused (.undecodable why) := by
  cases u with
  | command c =>
    cases hc : decode c with
    | ok i =>
      rw [takeTurn_command_of_ok hc]
      exact .inl (h.exec_next i)
    | error why => exact .inr ⟨c, why, rfl, hc, takeTurn_command_of_error hc s⟩
  | engine => exact .inl h.engineStep_next
  | tick => exact .inl ⟨_, takeTurn_tick s⟩
  | arrive b => exact .inl ⟨_, takeTurn_arrive b s⟩
  | reset cfg => exact .inl ⟨_, takeTurn_reset cfg s⟩

end

/-- Settles O46: the scheduled turn is taken from a state of the invariant, the schedule being no part of it. -/
theorem stepStopsOnlyOnBytesThatAreNoCommand : Obligations.StepStopsOnlyOnBytesThatAreNoCommand := by
  intro s h
  cases hs : s.schedule with
  | nil => exact .inl ⟨s, step_of_schedule_nil hs⟩
  | cons u rest =>
    rw [step_of_schedule_cons hs]
    obtain hnext | ⟨c, why, rfl, hc, hstop⟩ := (setSchedule_inv rest h).takeTurn_next_or_undecodable u
    · exact .inl hnext
    · exact .inr ⟨c, rest, why, rfl, hc, hstop⟩

end Sys2Proof.Machine

/-! The engine's calls to the outside (60_exceptions.md R217, 10_state.md R33, R34). -/

namespace Sys2Proof.Machine

/-- At most one call was logged, and a byte was sent exactly where it was a write of that byte. -/
def MakesAtMostOneCall (s t : State) : Prop :=
  (t.events = s.events ∧ t.sent = s.sent) ∨
  (∃ b, t.events = s.events ++ [.write b] ∧ t.sent = s.sent ++ [b]) ∨
  (∃ e, t.events = s.events ++ [e] ∧ (∀ b, e ≠ .write b) ∧ t.sent = s.sent)

section
variable {s t u : State}

theorem MakesNoCall.atMostOneCall (h : MakesNoCall s t) : MakesAtMostOneCall s t := .inl ⟨h.events, h.sent⟩

theorem MakesAtMostOneCall.then_noCall (h : MakesAtMostOneCall s t) (h' : MakesNoCall t u) :
    MakesAtMostOneCall s u := by
  rw [MakesAtMostOneCall, h'.events, h'.sent]
  exact h

/-- A call that may be left out and is no write: a hook's. -/
theorem atMostOneCall_of_optional {e : Event} {called : Bool} (he : ∀ b, e ≠ .write b)
    (hevents : t.events = s.events ++ if called then [e] else []) (hsent : t.sent = s.sent) :
    MakesAtMostOneCall s t := by
  cases called with
  | true => exact .inr (.inr ⟨e, hevents, he, hsent⟩)
  | false => exact .inl ⟨by simpa using hevents, hsent⟩

theorem tryRead_atMostOneCall (s : State) : MakesAtMostOneCall s (tryRead s) :=
  .inr (.inr ⟨_, tryRead_events s, nofun, tryRead_sent s⟩)

theorem drain_atMostOneCall (s : State) : MakesAtMostOneCall s (drain s) := by
  obtain ⟨-, h⟩ | ⟨-, -, h⟩ | ⟨-, -, h⟩ := drain_cases s <;> rw [h]
  · exact .inl ⟨rfl, rfl⟩
  · exact tryRead_atMostOneCall s
  · exact tryRead_atMostOneCall s

theorem preHook_atMostOneCall (s : State) : MakesAtMostOneCall s (preHook s) :=
  atMostOneCall_of_optional (e := .pre) nofun (callPreHook_events s) (callPreHook_sent s)

theorem tx_atMostOneCall (h : tx s = .next t) : MakesAtMostOneCall s t := by
  obtain ⟨b, -, rfl⟩ := tx_cases h
  exact .inr (.inl ⟨b, writeByte_events s b, writeByte_sent s b⟩)

theorem flush_atMostOneCall (s : State) : MakesAtMostOneCall s (flush s) :=
  .inr (.inr ⟨_, flushBus_events s, nofun, flushBus_sent s⟩)

theorem postHook_atMostOneCall (s : State) : MakesAtMostOneCall s (postHook s) :=
  atMostOneCall_of_optional (e := .post) nofun (callPostHook_events s) (callPostHook_sent s)

theorem sendingStep_atMostOneCall (h : sendingStep s = .next t) : MakesAtMostOneCall s t := by
  unfold sendingStep at h
  split at h
  case h_3 => exact tx_atMostOneCall h
  all_goals injection h with h; subst h
  · exact drain_atMostOneCall s
  · exact preHook_atMostOneCall s
  · exact flush_atMostOneCall s
  · exact postHook_atMostOneCall s
  · exact (settle_makesNoCall s).atMostOneCall

/-- A poll's one call is its read (R131). -/
theorem poll_atMostOneCall (h : poll s = .next t) : MakesAtMostOneCall s t := by
  obtain ⟨-, rfl⟩ | ⟨-, -, rfl⟩ | ⟨-, b, rest, -, h⟩ := poll_cases h
  · exact (finish_makesNoCall _ s).atMostOneCall
  · exact tryRead_atMostOneCall s
  · exact (tryRead_atMostOneCall s).then_noCall (takeByte_makesNoCall h)

theorem engineStep_atMostOneCall (h : engineStep s = .next t) : MakesAtMostOneCall s t := by
  obtain ⟨-, he⟩ | ⟨-, he⟩ | ⟨-, he⟩ := engineStep_cases s <;> rw [he] at h
  · injection h with h
    exact h ▸ (MakesNoCall.refl s).atMostOneCall
  · exact sendingStep_atMostOneCall h
  · exact poll_atMostOneCall h

end

/-- Settles O37: the calls of each of the engine's steps. -/
theorem engineStepMakesAtMostOneCall : Obligations.EngineStepMakesAtMostOneCall :=
  fun _ _ => engineStep_atMostOneCall

end Sys2Proof.Machine

/-! The sticky mark (60_exceptions.md R204, 93_implementation_defined.md U19). -/

namespace Sys2Proof.Machine

/-- The mark is as before, or the step was a refusal. -/
def KeepsMarkOrRefuses (s t : State) : Prop := t.refused = s.refused ∨ ∃ c, t = refuse c s

section
variable {s t : State}

theorem launch_refused (frame : Option (List Byte)) (s : State) : (launch frame s).refused = s.refused := by
  cases frame <;> rfl

theorem startTransaction_mark {slave fc : Byte} {start qty : Reg} {extra : List Byte}
    (h : startTransaction slave fc start qty extra s = .next t) : KeepsMarkOrRefuses s t := by
  obtain ⟨c, rfl, -⟩ | ⟨-, -, -, rfl⟩ := startTransaction_cases h
  · exact .inr ⟨c, rfl⟩
  · exact .inl (launch_refused _ (latchRequest slave fc s))

theorem exec_mark {i : Instr} (h : exec i s = .next t) : KeepsMarkOrRefuses s t := by
  obtain (⟨r, rfl⟩ | hrefused) | ⟨slave, fc, start, qty, extra, -, h⟩ | ⟨slave, fc, code, crcLo, crcHi, -, rfl⟩ :=
    exec_cases h
  · exact .inl rfl
  · exact .inr hrefused
  · exact startTransaction_mark h
  · exact .inl rfl

/-- Only a command refuses; every other turn keeps the mark, a reset too (log 13). -/
theorem takeTurn_mark {u : Turn} (h : takeTurn u s = .next t) :
    t.refused = s.refused ∨ ∃ c why, u = .command c ∧ t = refuse why s := by
  obtain ⟨c, i, rfl, -, h⟩ | ⟨-, h⟩ | ⟨-, rfl⟩ | ⟨b, -, rfl⟩ | ⟨cfg, -, rfl⟩ := takeTurn_cases h
  · exact (exec_mark h).imp_right fun ⟨why, ht⟩ => ⟨c, why, rfl, ht⟩
  · exact .inl (engineStep_engineKeeps h).refused
  · exact .inl rfl
  · exact .inl rfl
  · exact .inl rfl

end

/-- Settles O41: a turn keeps the mark, or is a command that refuses. -/
theorem refusedMarkIsSticky : Obligations.RefusedMarkIsSticky := by
  intro u s t h
  obtain hkept | ⟨c, why, rfl, rfl⟩ := takeTurn_mark h
  · exact ⟨hkept.trans, fun hclear hset => absurd (hset.symm.trans (hkept.trans hclear)) nofun⟩
  · exact ⟨fun _ => rfl, fun _ _ => ⟨⟨c, rfl⟩, why, rfl⟩⟩

end Sys2Proof.Machine
